-- ==== Sys2Proof/Word.lean ====
section
/-!
DEFINITION. The plain word and index types of the TD48 (00_scope.md, Conventions).
-/

namespace Sys2Proof

/-- A word of the readout buffer or a reply's data field (R150, R170). -/
abbrev Word := BitVec 16

/-- A card's serial (R4). -/
abbrev Serial := BitVec 32

/-- A record slot, 0 to 8,191 (00_scope.md, Conventions). -/
abbrev Slot := Fin 8192

/-- A position. The manual numbers positions 1 to 48: index `p` is position `p + 1`. -/
abbrev Pos := Fin 48

/-- A row line: 0 is line A, 5 is line F. -/
abbrev LineIx := Fin 6

/-- The generation of a value copy (R8). -/
abbrev Gen := BitVec 8

end Sys2Proof
end

