-- ==== Sys2Proof/Syntax.lean ====
section
/-!
DEFINITION. The commands of the TD48: one constructor of `Instr` per row of spec/opcode_table.json, with
the operands the row's rule gives it. Host frames carry the operand fields of 11.2 at their widths;
events carry what the outside decides (a line, a position, a time, what became of the array's cells).
-/

namespace Sys2Proof

/-- The class of a card (R17). -/
inductive CardClass where
  | standard | concession | service
  deriving DecidableEq, Repr

/-- The state of a value image (R13). -/
inductive CardState where
  | fresh | active | empty | blocked
  deriving DecidableEq, Repr

/-- One of a record's two value copies (R6). -/
inductive Copy where
  | a | b
  deriving DecidableEq, Repr

/-- One of the three granules of a record slot (section 1.1). -/
inductive GranuleName where
  | identity | copyA | copyB
  deriving DecidableEq, Repr, Inhabited

/-- The contents of an identity granule as its cells hold them, before the field checks of R2. -/
structure RawIdentity where
  serial : Serial
  classCode : BitVec 2
  faceValue : BitVec 16
  issueDay : BitVec 16
  deriving DecidableEq, Repr

/-- The contents of a value copy as its cells hold them, before the field checks of R2. The last
position is coded 0 for none and 1 to 48 (log 10). -/
structure RawValue where
  stateCode : BitVec 3
  balance : BitVec 16
  expiry : BitVec 16
  useCount : BitVec 16
  lastPosition : BitVec 6
  lastUseDay : BitVec 16
  generation : Gen
  deriving DecidableEq, Repr

/-- The cells of a granule: all erased; beyond correction or nearly blank; or contents, with at most
one cell in error (R1, R2). -/
inductive Granule (α : Type) where
  | blank
  | damaged
  | cells (contents : α) (cellInError : Bool)
  deriving DecidableEq, Repr

/-- The three granules of a record slot (section 1.1). -/
structure Record where
  identity : Granule RawIdentity
  copyA : Granule RawValue
  copyB : Granule RawValue
  deriving DecidableEq, Repr

/-- What has befallen the cells of a granule between its last write and the read now completing
(R1, R3): nothing, one more cell in error, two, or three and more, which leave it reading whatever
code and checks then give. -/
inductive CellChange where
  | asHeld
  | oneCellFails
  | twoCellsFail
  | manyCellsFail (left : Record)
  deriving DecidableEq, Repr

/-- Where a reset cuts a store step that is running (R10, R11): the granule it had come to, for an erase
of a slot, and whether that granule was then fully erased and not yet programmed (log 11). -/
structure Cut where
  granule : GranuleName
  leftBlank : Bool
  deriving DecidableEq, Repr

/-- Where a step of the write queue's entry in flight stands (R11, R131, R137): the erase of a granule under
way; every cell of that granule erased; the program of a granule under way; the verify, with what the step has
left in the cells. A write's granule is its target; an erase of a slot programs nothing. -/
inductive Progress where
  | erasing (granule : GranuleName)
  | erased (granule : GranuleName)
  | programming
  | verifying (left : Record)
  deriving DecidableEq, Repr, Inhabited

/-- The commands of spec/opcode_table.json. -/
inductive Instr where
  -- the supply, the pins and the resets (09)
  | powerOn (cut : Cut)
  | powerFailure (cut : Cut)
  | resetnAsserted (cut : Cut)
  | resetnDeasserted
  | pwrlowAsserted
  | pwrlowDeasserted
  -- the station port (08)
  | transferIgnored
  | frameForOtherUnit
  | badKind
  | readStatus
  | readBuffer
  | enableWrite
  | resetEnter
  | enterInReset
  | resetLeave
  | serialHigh (value : BitVec 16)
  | serialLow (value : BitVec 16)
  | stageValue (value : BitVec 16)
  | stageExpiry (value : BitVec 16)
  | stageClass (operand : BitVec 20)
  | stageSlot (operand : BitVec 20)
  | stageTariffA (zone : BitVec 4) (band : BitVec 2) (initialCharge : BitVec 14)
  | stageTariffB (value : BitVec 16)
  | stageTariffC (standardRate concessionRate : BitVec 10)
  -- cards, slots and regions (01, 02, 08)
  | issue
  | credit
  | setExpiry
  | block
  | unblock
  | retire
  | eraseSlot
  | queryCard
  | querySlot
  | unlockRegion (region : BitVec 20)
  | lockRegion (region : BitVec 20)
  -- the tariff unit (06)
  | writeTariff
  | barZone (zone : BitVec 4) (band : BitVec 2)
  | writeBand (minute : BitVec 11) (band : BitVec 2)
  | clearBand (minute : BitVec 11)
  | setDay (day : BitVec 16)
  | setTime (second : BitVec 17)
  | collectTakings
  -- the row lines (03)
  | configureLinePeriod (line : BitVec 3) (period : BitVec 17)
  | configureLineTiming (line : BitVec 3) (pitch : BitVec 9)
  | enableLine (line : BitVec 3)
  | disableLine (line : BitVec 3)
  | setSilentLimit (limit : BitVec 20)
  | setGrace (window : BitVec 20)
  | setCheckpoint (step : BitVec 20)
  -- the positions (04)
  | enablePosition (position : BitVec 20)
  | disablePosition (position : BitVec 20)
  | releasePosition (position : BitVec 20)
  | readPosition (position : BitVec 20)
  -- the attention unit (08, 09)
  | readAttention
  | clearAttention (mask : BitVec 7)
  | setAttentionMode (pulse : Bool) (mask : BitVec 7)
  | readAttentionDetail
  | attnPulseEnd
  -- events of the row lines (03); times are microseconds since the end of the cycle-open frame
  | cycleStart (line : LineIx)
  | cycleOpenFrameEnd (line : LineIx)
  | transmissionStart (line : LineIx) (time : Nat)
  | transmissionEnd (line : LineIx) (time : Nat) (bits : BitVec 38)
  | slotWindowClose (line : LineIx)
  -- events of the calls and the clock (05, 06)
  | intervalExpiry (position : Pos)
  | graceTimerExpiry (position : Pos)
  | clockStep
  | lineFaultEvent (line : LineIx)
  -- events of the store engine (07)
  | storeReadComplete (change : CellChange)
  | entryStart
  | valueWriteComplete (left : Granule RawValue)
  | issueStepComplete (left : Record)
  | eraseComplete (left : Record)
  -- the supply and the start of a transfer
  | supplyValid
  | transferStart
  deriving DecidableEq, Repr

end Sys2Proof
end

