-- ==== Sys2Proof/WellFormed.lean ====
section
/-!
DEFINITION. Which commands are well formed. The operand widths are in the types of `Instr`; what is left
is one fact of the line's signalling: a report of 38 bits lasts 1.9 ms (11.1), so none that
starts after the end of the cycle-open frame ends earlier than that.
-/

namespace Sys2Proof

/-- The length of a station report in microseconds: 38 bits at 20 kbit/s (11.1). -/
abbrev reportMicros : Nat := 1900

/-- A command that the outside can send (R48, 11.1). -/
def Instr.wellFormed : Instr → Bool
  | .transmissionEnd _ time _ => decide (reportMicros ≤ time)
  | _ => true

end Sys2Proof
end

