-- ==== Sys2Proof/Decode.lean ====
section
/-!
DEFINITION. From the bits of a station port transfer to the command they spell, and back (R148, R149,
11.2). The rows of spec/opcode_table.json give no bits, so the host's `decodeTableWord` spells nothing;
`decodeTransfer` is the decoder the spec itself gives, total on any bits, and `encodeFrame` its encoder.
-/

namespace Sys2Proof

/-- The bits of a field in the order they travel, most significant first (11). -/
def msbFirst {n : Nat} (x : BitVec n) : List Bool :=
  ((List.range n).reverse).map x.getLsbD

/-- The number whose bits, most significant first, are `bits`. -/
def ofMsbFirst (n : Nat) (bits : List Bool) : BitVec n :=
  bits.foldl (fun x b => x <<< 1 ||| (BitVec.ofBool b).setWidth n) 0

/-- One bit through a check register of the given polynomial (less its leading term). -/
def crcBit {n : Nat} (polynomial register : BitVec n) (bit : Bool) : BitVec n :=
  if register.msb != bit then (register <<< 1) ^^^ polynomial else register <<< 1

/-- The register of a cyclic check after the covered bits, with no final inversion. -/
def crc {n : Nat} (polynomial start : BitVec n) (bits : List Bool) : BitVec n :=
  bits.foldl (crcBit polynomial) start

/-- The station port's check: x⁴ + x + 1, initial value 1111 (R148). -/
def crc4 (bits : List Bool) : BitVec 4 := crc 0b0011#4 0b1111#4 bits

/-- The station report's check: x⁵ + x² + 1, initial value 11111 (R49). -/
def crc5 (bits : List Bool) : BitVec 5 := crc 0b00101#5 0b11111#5 bits

/-- The cycle-open frame's check: x⁸ + x² + x + 1, initial value 11111111 (R47). -/
def crc8 (bits : List Bool) : BitVec 8 := crc 0x07#8 0xFF#8 bits

/-- The command of a kind code and its operand, or none for a code that the table of 11.2 lacks.
Operand bits that a kind does not use are ignored (R150, R182). -/
def ofKind (kind : BitVec 6) (op : BitVec 20) : Option Instr :=
  match kind.toNat with
  | 1 => some .readStatus
  | 2 => some .readBuffer
  | 3 => some .enableWrite
  | 4 => some .resetEnter
  | 5 => some .resetLeave
  | 8 => some (.serialHigh (op.extractLsb' 0 16))
  | 9 => some (.serialLow (op.extractLsb' 0 16))
  | 10 => some (.stageValue (op.extractLsb' 0 16))
  | 11 => some (.stageExpiry (op.extractLsb' 0 16))
  | 12 => some (.stageClass op)
  | 13 => some (.stageSlot op)
  | 14 => some (.stageTariffA (op.extractLsb' 16 4) (op.extractLsb' 14 2) (op.extractLsb' 0 14))
  | 15 => some (.stageTariffB (op.extractLsb' 0 16))
  | 16 => some (.stageTariffC (op.extractLsb' 10 10) (op.extractLsb' 0 10))
  | 17 => some .issue
  | 18 => some .credit
  | 19 => some .block
  | 20 => some .unblock
  | 21 => some .setExpiry
  | 22 => some .retire
  | 23 => some .eraseSlot
  | 24 => some .queryCard
  | 25 => some .querySlot
  | 26 => some (.unlockRegion op)
  | 27 => some (.lockRegion op)
  | 32 => some .writeTariff
  | 33 => some (.barZone (op.extractLsb' 2 4) (op.extractLsb' 0 2))
  | 34 => some (.writeBand (op.extractLsb' 2 11) (op.extractLsb' 0 2))
  | 35 => some (.clearBand (op.extractLsb' 0 11))
  | 36 => some (.setDay (op.extractLsb' 0 16))
  | 37 => some (.setTime (op.extractLsb' 0 17))
  | 38 => some .collectTakings
  | 40 => some (.configureLinePeriod (op.extractLsb' 17 3) (op.extractLsb' 0 17))
  | 41 => some (.configureLineTiming (op.extractLsb' 17 3) (op.extractLsb' 0 9))
  | 42 => some (.enableLine (op.extractLsb' 17 3))
  | 43 => some (.disableLine (op.extractLsb' 17 3))
  | 44 => some (.setSilentLimit op)
  | 45 => some (.setGrace op)
  | 46 => some (.setCheckpoint op)
  | 48 => some (.enablePosition op)
  | 49 => some (.disablePosition op)
  | 50 => some (.releasePosition op)
  | 51 => some (.readPosition op)
  | 56 => some .readAttention
  | 57 => some (.clearAttention (op.extractLsb' 0 7))
  | 58 => some (.setAttentionMode (op.getLsbD 7) (op.extractLsb' 0 7))
  | 59 => some .readAttentionDetail
  | _ => none

/-- What an accepted frame spells at a part whose straps are `straps` (R149, R150): another unit's
frame, a kind's command, or a frame of an unknown kind. -/
def ofFields (straps address : BitVec 2) (kind : BitVec 6) (op : BitVec 20) : Instr :=
  if address = straps then (ofKind kind op).getD .badKind else .frameForOtherUnit

/-- What a 32-bit frame spells: a frame whose last four bits are not the check of the 28 before them
is ignored, whatever its address (R148). -/
def decodeFrame (straps : BitVec 2) (frame : BitVec 32) : Instr :=
  if crc4 (msbFirst (frame.extractLsb' 4 28)) = frame.extractLsb' 0 4 then
    ofFields straps (frame.extractLsb' 30 2) (frame.extractLsb' 24 6) (frame.extractLsb' 4 20)
  else .transferIgnored

/-- What a whole transfer spells, from the bits taken while SCS was asserted (R148): any number of
bits other than 32 is an ignored transfer. -/
def decodeTransfer (straps : BitVec 2) (bits : List Bool) : Instr :=
  if bits.length = 32 then decodeFrame straps (ofMsbFirst 32 bits) else .transferIgnored

/-- The kind code and operand of a host frame's command, with every unused operand bit 0 (11.2);
none for a command that no frame carries. -/
def Instr.kindAndOperand : Instr → Option (BitVec 6 × BitVec 20)
  | .readStatus => some (1, 0)
  | .readBuffer => some (2, 0)
  | .enableWrite => some (3, 0)
  | .resetEnter => some (4, 0)
  | .resetLeave => some (5, 0)
  | .serialHigh v => some (8, 0#4 ++ v)
  | .serialLow v => some (9, 0#4 ++ v)
  | .stageValue v => some (10, 0#4 ++ v)
  | .stageExpiry v => some (11, 0#4 ++ v)
  | .stageClass op => some (12, op)
  | .stageSlot op => some (13, op)
  | .stageTariffA zone band charge => some (14, zone ++ band ++ charge)
  | .stageTariffB v => some (15, 0#4 ++ v)
  | .stageTariffC standard concession => some (16, standard ++ concession)
  | .issue => some (17, 0)
  | .credit => some (18, 0)
  | .block => some (19, 0)
  | .unblock => some (20, 0)
  | .setExpiry => some (21, 0)
  | .retire => some (22, 0)
  | .eraseSlot => some (23, 0)
  | .queryCard => some (24, 0)
  | .querySlot => some (25, 0)
  | .unlockRegion op => some (26, op)
  | .lockRegion op => some (27, op)
  | .writeTariff => some (32, 0)
  | .barZone zone band => some (33, 0#14 ++ zone ++ band)
  | .writeBand minute band => some (34, 0#7 ++ minute ++ band)
  | .clearBand minute => some (35, 0#9 ++ minute)
  | .setDay day => some (36, 0#4 ++ day)
  | .setTime second => some (37, 0#3 ++ second)
  | .collectTakings => some (38, 0)
  | .configureLinePeriod line period => some (40, line ++ period)
  | .configureLineTiming line pitch => some (41, line ++ 0#8 ++ pitch)
  | .enableLine line => some (42, line ++ 0#17)
  | .disableLine line => some (43, line ++ 0#17)
  | .setSilentLimit op => some (44, op)
  | .setGrace op => some (45, op)
  | .setCheckpoint op => some (46, op)
  | .enablePosition op => some (48, op)
  | .disablePosition op => some (49, op)
  | .releasePosition op => some (50, op)
  | .readPosition op => some (51, op)
  | .readAttention => some (56, 0)
  | .clearAttention mask => some (57, 0#13 ++ mask)
  | .setAttentionMode pulse mask => some (58, 0#12 ++ BitVec.ofBool pulse ++ mask)
  | .readAttentionDetail => some (59, 0)
  | .powerOn _ | .powerFailure _ | .resetnAsserted _ | .resetnDeasserted => none
  | .pwrlowAsserted | .pwrlowDeasserted | .supplyValid => none
  | .transferIgnored | .frameForOtherUnit | .badKind | .transferStart => none
  | .enterInReset | .attnPulseEnd => none
  | .cycleStart _ | .cycleOpenFrameEnd _ | .transmissionStart _ _ => none
  | .transmissionEnd _ _ _ | .slotWindowClose _ | .lineFaultEvent _ => none
  | .intervalExpiry _ | .graceTimerExpiry _ | .clockStep => none
  | .storeReadComplete _ | .entryStart | .valueWriteComplete _ => none
  | .issueStepComplete _ | .eraseComplete _ => none

/-- The 28 covered bits of a frame: unit address, kind, operand (11.2). -/
def frameBody (address : BitVec 2) (kind : BitVec 6) (op : BitVec 20) : BitVec 28 :=
  address ++ kind ++ op

/-- A frame of the given fields with its check (R148, 11.2). -/
def frameOf (address : BitVec 2) (kind : BitVec 6) (op : BitVec 20) : BitVec 32 :=
  frameBody address kind op ++ crc4 (msbFirst (frameBody address kind op))

/-- The frame that carries a host command to the part at `address`; none for a command that no
frame carries (an event, or a transfer that is not a frame of a known kind). -/
def encodeFrame (address : BitVec 2) (i : Instr) : Option (BitVec 32) :=
  i.kindAndOperand.map fun ko => frameOf address ko.1 ko.2

/-- The command that a word spells by the bits of spec/opcode_table.json. No row of the table gives
bits (spec/98_reader.md: `n_rows_with_fixed` 0), so no word spells one (log 26). -/
def decodeTableWord (_nbits _w : Nat) : Option Instr := none

end Sys2Proof
end

