-- ==== Sys2Proof/Config.lean ====
section
/-!
DEFINITION. The constants the manual fixes for every TD48, and the one value that it leaves open: how far a
store step has come when a read suspends it.
-/

namespace Sys2Proof.Config

/-- The greatest balance and face value (00_scope.md, Units of value; R2, R14). -/
abbrev maxBalance : Nat := 50000

/-- The places of the write queue, waiting and in flight together (R136). -/
abbrev queuePlaces : Nat := 96

/-- The entries of the band schedule (R118). -/
abbrev schedulePlaces : Nat := 8

/-- The greatest value of a takings counter (R126). -/
abbrev maxTakings : Nat := 4294967295

/-- The greatest due or owed amount of a position in GRACE (R98). -/
abbrev maxAmount : Nat := 255

/-- Failed attempts after which an entry is removed: a failure with this many before it is the last
(R139, R142). -/
abbrev lastAttempt : Nat := 2

/-- A free value (log 11): where a running store step stands at the n-th suspension by a read (R131). The
manual gives the parts of a step and their order, and no time at which one ends. -/
opaque stepProgress : Nat → Progress

end Sys2Proof.Config
end

