-- ==== Sys2Proof/Machine/State.lean ====
section
/-!
DEFINITION. Everything the TD48 holds, as plain data, and its value after reset. INVENTORY.md, heading
State, lists each field with the rule that names it.
-/

namespace Sys2Proof.Machine

/-! ### Card records (01) -/

/-- The contents of a valid identity granule (R4). -/
structure Identity where
  serial : Serial
  cls : CardClass
  faceValue : Nat
  issueDay : BitVec 16
  deriving DecidableEq, Repr

/-- A value image without its generation (R6). An expiry day of 0 is no expiry; a last position of
none is none yet. -/
structure Image where
  state : CardState
  balance : Nat
  expiry : BitVec 16
  useCount : BitVec 16
  lastPosition : Option Pos
  lastUseDay : BitVec 16
  deriving DecidableEq, Repr

/-- The outcome of reading a granule (R1). -/
inductive ReadOutcome (α : Type) where
  | good (contents : α)
  | corrected (contents : α)
  | bad
  | blank
  deriving DecidableEq, Repr

/-! ### The store engine and the write queue (07) -/

/-- The block that asked for a read (R130). -/
inductive Requester where
  | rebuild
  | claim (position : Pos)
  | host
  deriving DecidableEq, Repr

/-- A read request: who asked, and which granule of which slot (R130). -/
structure ReadRequest where
  who : Requester
  slot : Slot
  granule : GranuleName
  deriving DecidableEq, Repr

/-- The kind of a queue entry as STORE FAULT reports it (11.2). -/
inductive EntryKind where
  | value | issue | retire | eraseSlot
  deriving DecidableEq, Repr

/-- Where a queue entry came from (R133). -/
inductive Origin where
  | position | host | refresh
  deriving DecidableEq, Repr

/-- What a queue entry writes: its kind with the image and the identity that the kind has (R133). -/
inductive Work where
  | value (image : Image)
  | issue (identity : Identity) (image : Image)
  | retire
  | eraseSlot
  deriving DecidableEq, Repr

/-- An entry of the write queue (R133). -/
structure QueueEntry where
  work : Work
  slot : Slot
  attempts : Nat
  origin : Origin
  deriving DecidableEq, Repr

/-- The step an entry in flight is at: a value write with its target and generation (R137), one of the
three steps of ISSUE (R141), or the erase of RETIRE and ERASE-SLOT (R142). -/
inductive FlightStep where
  | writeValue (target : Copy) (generation : Gen)
  | issueErase
  | issueIdentity
  | issueCopyA
  | erase
  deriving DecidableEq, Repr

/-- The entry in flight, its step, and how far the step is known to have come: for a suspended step, where it
stands (R129, R131, R132). -/
structure Flight where
  entry : QueueEntry
  step : FlightStep
  progress : Progress
  deriving DecidableEq, Repr

/-- The store engine's volatile state (R129). A read is in flight when `reading` is present, else a step
when `flight` is present; `suspended` marks that the step is suspended by reads, its progress kept in the
flight (R131). -/
structure Engine where
  reading : Option ReadRequest
  readList : List ReadRequest
  flight : Option Flight
  suspended : Bool
  waiting : List QueueEntry
  corrected : Nat
  locks : BitVec 16
  deriving DecidableEq, Repr

/-! ### The card directory (02) -/

/-- The condition of a record (R20, R21). -/
inductive Condition where
  | good | issuing | damaged | worn
  deriving DecidableEq, Repr

/-- A directory entry; `live` is the live copy and its generation, present together (R20). -/
structure DirEntry where
  serial : Serial
  slot : Slot
  cls : CardClass
  condition : Condition
  claimedBy : Option Pos
  live : Option (Copy × Gen)
  deriving DecidableEq, Repr

/-- A claim in flight: whether its first copy has read bad or blank, so that it reads the other (R32),
whether a queue entry for the record has joined since its read was asked for (R33), and the
positions whose claims of the serial are held behind it, in order (R34). -/
structure FlightClaim where
  serial : Serial
  slot : Slot
  position : Pos
  second : Bool
  appeared : Bool
  held : List Pos
  deriving DecidableEq, Repr

/-- What the rebuild is reading of its slot, with what it has read of it (R28). A value copy is kept as
its image and generation when it read valid; `corrected` tells whether copy A read corrected. -/
inductive RebuildStage where
  | identity
  | copyA (identity : Identity)
  | copyB (identity : Identity) (a : Option (Image × Gen)) (corrected : Bool)
  deriving DecidableEq, Repr

/-- The rebuild's progress (R28). -/
structure Rebuild where
  slot : Slot
  stage : RebuildStage
  deriving DecidableEq, Repr

/-- The card directory (R20 to R29). `entries` stands in order of insertion. -/
structure Directory where
  entries : List DirEntry
  free : List Slot
  orphans : Nat
  ready : Bool
  claims : List FlightClaim
  rebuild : Option Rebuild
  deriving DecidableEq, Repr

/-! ### The tariff unit (06) -/

/-- An entry of the tariff table (R113). -/
structure TariffEntry where
  valid : Bool
  initialCharge : BitVec 8
  interval : BitVec 13
  standardRate : BitVec 10
  concessionRate : BitVec 10
  check : Bool
  deriving DecidableEq, Repr

/-- The tariff unit: table, band schedule of (start minute, band), current band, clock, takings
(R113, R118, R121, R122, R126). `daySet` and `timeSet` say which of SET DAY and SET TIME have been
accepted since the reset (R123); `part` is the part of the current second counted, in tenths. -/
structure Tariff where
  table : Vector TariffEntry 60
  schedule : List (Nat × BitVec 2)
  band : BitVec 2
  day : BitVec 16
  second : Nat
  part : Nat
  daySet : Bool
  timeSet : Bool
  takings : Vector Nat 16
  deriving DecidableEq, Repr

/-! ### The row lines (03) -/

/-- The state of a line (R39). -/
inductive LineState where
  | off | blanking | running | faulted
  deriving DecidableEq, Repr

/-- The timing settings of a line: period in ms, first-slot offset S0 and pitch W in 0.1 ms (R39). -/
structure Timing where
  period : Nat
  offset : Nat
  pitch : Nat
  deriving DecidableEq, Repr

/-- Where a line is in its cycle: not driven; sending the cycle-open frame; receiving in the window of a slot,
or before window 0; past window 7 (R40, R45, R48). -/
inductive CyclePhase where
  | stopped
  | sending (frame : BitVec 183)
  | window (slot : Fin 8)
  | over
  deriving DecidableEq, Repr

/-- A transmission noted in the window record: when it began and, once complete, when it ended and its
38 bits (R48). -/
structure Transmission where
  start : Nat
  finish : Option (Nat × BitVec 38)
  deriving DecidableEq, Repr

/-- The window record (R39): no start seen, one, or more than one, with the first transmission. -/
inductive WindowRecord where
  | noStart
  | one (first : Transmission)
  | many (first : Transmission)
  deriving DecidableEq, Repr

/-- The transmission the receiver is taking: its start and the slot it is assigned to, none when it is
discarded (R48). -/
structure Reception where
  start : Nat
  slot : Option (Fin 8)
  deriving DecidableEq, Repr

/-- A line controller (R39). -/
structure Line where
  state : LineState
  held : Timing
  cycle : Timing
  count : BitVec 4
  phase : CyclePhase
  receiver : Option Reception
  record : WindowRecord
  deriving DecidableEq, Repr

/-! ### The positions (04, 05) -/

/-- The state of a position (R57). -/
inductive PosState where
  | off | vacant | reading | checking | waiting | held | refused | metered | grace | cut | lost
  deriving DecidableEq, Repr

/-- The class of a slot's last classified window (R39, R50). -/
inductive ReportClass where
  | none | valid | slotFault | checkFault | positionFault | silent
  deriving DecidableEq, Repr

/-- The hook field of a report (R57). -/
inductive Hook where
  | on | off
  deriving DecidableEq, Repr

/-- The sixteen verdicts of an order (11.1). -/
inductive Verdict where
  | none | wait | accepted | refusedUnknown | refusedEmpty | refusedBlocked | refusedExpired
  | refusedInUse | refusedFault | refusedLow | grace | cutExhausted | cutBarred | cutBlocked
  | cutUnpaid | cutOther
  deriving DecidableEq, Repr

/-- An order: what the telephone is to show (R46). -/
structure Order where
  verdict : Verdict
  warn : Bool
  shown : Nat
  deriving DecidableEq, Repr

/-- What has become of the card that could not pay (R81, R100 to R103). -/
inductive SubState where
  | old | absent | reading | checking | refused
  deriving DecidableEq, Repr

/-- A call context (R81). Timers are absent when stopped and hold the tenths of a second left when
running; `amount` is the due or owed amount. -/
structure Call where
  zone : BitVec 4
  rateUsed : Nat
  interval : Nat
  phase : Fin 4
  intervalTimer : Option Nat
  amount : Nat
  graceTimer : Option Nat
  lastPulse : Option (BitVec 4)
  sub : SubState
  deriving DecidableEq, Repr

/-- A claim sent and not yet answered (R57). -/
structure Outstanding where
  serial : Serial
  abandoned : Bool
  deriving DecidableEq, Repr

/-- The record of a live claim: claimed slot, claimed serial, class and claim image, which are present
together (R57, R64). -/
structure Claim where
  slot : Slot
  serial : Serial
  cls : CardClass
  image : Image
  deriving DecidableEq, Repr

/-- A position context (R57). `debited` is D, `working` is W. -/
structure Position where
  state : PosState
  enabled : Bool
  silentCount : Nat
  lastClass : ReportClass
  lastHook : Hook
  highHalf : Option (BitVec 16)
  candidate : Option Serial
  outstanding : Option Outstanding
  claim : Option Claim
  claimBalance : Nat
  working : Nat
  debited : Nat
  refusedSerial : Option Serial
  refusedVerdict : Verdict
  refusedBalance : Nat
  call : Option Call
  order : Order
  deriving DecidableEq, Repr

/-- The settings shared by all lines or positions (R39, R99, R87). -/
structure Settings where
  silentLimit : Nat
  graceWindow : Nat
  checkpoint : Nat
  deriving DecidableEq, Repr

/-! ### The station port (08) -/

/-- The modes of the part (R157). -/
inductive Mode where
  | running | starting | draining | inReset
  deriving DecidableEq, Repr

/-- The reply codes (R153, 11.2). -/
inductive ReplyCode where
  | ok | badKind | notReady | noWriteEnable | locked | range | unknownCard | exists | inUse
  | storeFull | queueFull | pending | badState | full | noReply
  deriving DecidableEq, Repr

/-- The held reply's code and data (R150). -/
structure Reply where
  code : ReplyCode
  data : Word
  deriving DecidableEq, Repr

/-- The staging fields (R154). -/
structure Staging where
  serial : Serial
  value : BitVec 16
  expiry : BitVec 16
  cls : CardClass
  slot : Slot
  zone : BitVec 4
  band : BitVec 2
  initialCharge : BitVec 14
  interval : BitVec 16
  standardRate : BitVec 10
  concessionRate : BitVec 10
  deriving DecidableEq, Repr

/-- The host actions that may wait for a store read (R151). -/
inductive ActionKind where
  | credit | setExpiry | block | unblock | queryCard | querySlot
  deriving DecidableEq, Repr

/-- What a working action waits for: the identity granule (queries only), the live copy, or the other
copy, with the identity a query has read, none when it was unreadable (R146, R166). -/
inductive ActionStage where
  | identity
  | live (identity : Option Identity)
  | other (identity : Option Identity)
  deriving DecidableEq, Repr

/-- A host action at work (R159): the record it acts on, what it waits for, and whether a queue entry for
the record has joined since. -/
structure HostAction where
  kind : ActionKind
  serial : Serial
  slot : Slot
  stage : ActionStage
  appeared : Bool
  deriving DecidableEq, Repr

/-- The result state (R151). -/
inductive ResultState where
  | none
  | working (action : HostAction)
  | unsent
  deriving DecidableEq, Repr

/-- A transfer under way: the reply-owner mark and whether the result was unsent at its start, and the
32 bits it shifts out, none when SDO is undriven (R149 to R151). -/
structure Transfer where
  owned : Bool
  unsent : Bool
  shifted : Option (BitVec 32)
  deriving DecidableEq, Repr

/-- The station port (R148 to R172). The readout buffer's count is its length (R170). -/
structure Port where
  staging : Staging
  latch : Bool
  ownerMark : Bool
  reply : Reply
  result : ResultState
  transfer : Option Transfer
  rs : Bool
  fe : Bool
  mode : Mode
  buffer : List Word
  pointer : Nat
  deriving DecidableEq, Repr

/-! ### The attention unit and the pins (09) -/

/-- The ATTN modes (R174). -/
inductive AttnMode where
  | level | pulse
  deriving DecidableEq, Repr

/-- The detail of STORE FAULT: the slot, and the entry's kind and origin or none for the mark that a read
found the fault (R173). -/
structure StoreFault where
  slot : Slot
  cause : Option (EntryKind × Origin)
  deriving DecidableEq, Repr

/-- The attention unit (R173, R174). A flag with detail is set when it is present, and then holds its
detail: last sighting, fault, faulted-line set (bit i is line i), lost-position set (bit p is index
p), zone and band, count. -/
structure Attention where
  hotCard : Option (Serial × Pos)
  storeFault : Option StoreFault
  lineFault : Option (BitVec 6)
  positionLost : Option (BitVec 48)
  tariffFault : Option (BitVec 4 × BitVec 2)
  takingsFull : Bool
  admission : Option Nat
  mask : BitVec 7
  mode : AttnMode
  pulses : Nat
  driving : Bool
  deriving DecidableEq, Repr

/-- The supply (R177): absent, risen and not yet valid, or valid. -/
inductive Supply where
  | absent | rising | valid
  deriving DecidableEq, Repr

/-- The supply and the levels of the input pins: RESETN and PWRLOW (true where asserted), UA1 and UA0. -/
structure Pins where
  supply : Supply
  resetn : Bool
  pwrlow : Bool
  straps : BitVec 2
  deriving DecidableEq, Repr

/-! ### The whole part -/

/-- The state of the TD48, and the queue of commands that wait to reach it. `moments` is the model's own: how
often a read has suspended a step, which picks the free value of that suspension (log 11). -/
structure State where
  store : List (Slot × Record)
  engine : Engine
  dir : Directory
  tariff : Tariff
  lines : Vector Line 6
  positions : Vector Position 48
  settings : Settings
  port : Port
  attention : Attention
  pins : Pins
  moments : Nat
  pending : List Instr
  deriving DecidableEq, Repr

/-- Why a step could stop the machine. The spec gives every command an effect or says that its event does
not occur, so there is no such reason: no command raises a fault. -/
inductive Fault
  deriving DecidableEq, Repr

/-- Why a command has no meaning. -/
inductive Refusal where
  /-- Raised by `exec` for a command without a meaning, named by its mnemonic; safe. No command of the
  table is without one. -/
  | notModelled (mnemonic : String)
  deriving DecidableEq, Repr

/-! ### The values after a reset -/

/-- The engine after a reset (R129, R18). -/
def Engine.reset : Engine :=
  { reading := none, readList := [], flight := none, suspended := false, waiting := [],
    corrected := 0, locks := 0xFFFF#16 }

/-- The directory after a reset: empty and NOT READY (R27). -/
def Directory.reset : Directory :=
  { entries := [], free := [], orphans := 0, ready := false, claims := [], rebuild := none }

/-- A tariff entry after a reset: INVALID, with a check that verifies (R113, R116). -/
def TariffEntry.reset : TariffEntry :=
  { valid := false, initialCharge := 0, interval := 5, standardRate := 0, concessionRate := 0,
    check := true }

/-- The tariff unit after a reset (R113, R118, R121, R122, R126). -/
def Tariff.reset : Tariff :=
  { table := Vector.replicate 60 .reset, schedule := [], band := 0, day := 0, second := 0, part := 0,
    daySet := false, timeSet := false, takings := Vector.replicate 16 0 }

/-- The default line settings: 100 ms, 4.0 ms, 10.0 ms (R39). -/
def Timing.reset : Timing := { period := 100, offset := 40, pitch := 100 }

/-- A line after a reset (R39). DESIGN CHOICE, unsafe (log 4): the cycle settings before a first cycle. -/
def Line.reset : Line :=
  { state := .off, held := .reset, cycle := .reset, count := 0, phase := .stopped, receiver := none,
    record := .noStart }

/-- A position after a reset (R57, R81). -/
def Position.reset : Position :=
  { state := .off, enabled := true, silentCount := 0, lastClass := .none, lastHook := .on,
    highHalf := none, candidate := none, outstanding := none, claim := none, claimBalance := 0,
    working := 0, debited := 0, refusedSerial := none, refusedVerdict := .none, refusedBalance := 0,
    call := none, order := { verdict := .none, warn := false, shown := 0 } }

/-- The shared settings after a reset: 5, 10 s, 8 (R39, R99, R87). -/
def Settings.reset : Settings := { silentLimit := 5, graceWindow := 10, checkpoint := 8 }

/-- The staging fields after a reset (R154). -/
def Staging.reset : Staging :=
  { serial := 0, value := 0, expiry := 0, cls := .standard, slot := 0, zone := 0, band := 0,
    initialCharge := 0, interval := 0, standardRate := 0, concessionRate := 0 }

/-- The port after a power-on or RESETN reset (R149 to R157, R170, R177). -/
def Port.reset : Port :=
  { staging := .reset, latch := false, ownerMark := false, reply := { code := .noReply, data := 0 },
    result := .none, transfer := none, rs := true, fe := false, mode := .starting, buffer := [],
    pointer := 0 }

/-- The attention unit after a reset (R173, R174). -/
def Attention.reset : Attention :=
  { hotCard := none, storeFault := none, lineFault := none, positionLost := none, tariffFault := none,
    takingsFull := false, admission := none, mask := 0x7F#7, mode := .level, pulses := 0,
    driving := false }

/-- The pins as the model starts with them: RESETN asserted with the supply valid (DEDUCED, log 1);
PWRLOW deasserted and both straps 0 (DESIGN CHOICE, unsafe, log 3). -/
def Pins.reset : Pins := { supply := .valid, resetn := true, pwrlow := false, straps := 0 }

/-- The part in a RESETN reset: every volatile item at its reset value, the array as the model starts
with it, every granule blank (DESIGN CHOICE, unsafe, log 2), no step suspended yet (DESIGN CHOICE, log 11),
and no command waiting. The start-up begins at RESETN_DEASSERTED (R181, log 1). -/
def State.reset : State :=
  { store := [], engine := .reset, dir := .reset, tariff := .reset,
    lines := Vector.replicate 6 .reset, positions := Vector.replicate 48 .reset,
    settings := .reset, port := .reset, attention := .reset, pins := .reset, moments := 0, pending := [] }

end Sys2Proof.Machine
end

