-- ==== Sys2Proof/Machine/Ops.lean ====
section
/-!
DEFINITION. The shared operations of the part: component updates, the record array and its granules, the
reads of the store engine, position contexts and their orders, the reply and the taking of a frame.
-/

namespace Sys2Proof.Machine

/-- The outcome of a command that completes in `s`. -/
abbrev done (s : State) : Host.Outcome State Fault Refusal := .next s

/-! ### Operations on the syntax's own types -/

end Sys2Proof.Machine

namespace Sys2Proof

open Machine

/-- The code of a card class. -/
def CardClass.code : CardClass → BitVec 2
  | .standard => 0
  | .concession => 1
  | .service => 2

/-- The code of a card state. -/
def CardState.code : CardState → BitVec 2
  | .fresh => 0
  | .active => 1
  | .empty => 2
  | .blocked => 3

/-- Reading a granule: blank is told before its code is applied; contents that fail the field checks
read bad (R1, R2). -/
def Granule.read {α β : Type} (check : α → Option β) : Granule α → ReadOutcome β
  | .blank => .blank
  | .damaged => .bad
  | .cells x inError =>
    match check x with
    | none => .bad
    | some y => if inError then .corrected y else .good y

/-- The value copy of a record. -/
def Record.copy (r : Record) : Copy → Granule RawValue
  | .a => r.copyA
  | .b => r.copyB

/-- The record with a value copy replaced. -/
def Record.withCopy (r : Record) (c : Copy) (g : Granule RawValue) : Record :=
  match c with
  | .a => { r with copyA := g }
  | .b => { r with copyB := g }

/-- The other of a record's value copies. -/
def Copy.other : Copy → Copy
  | .a => .b
  | .b => .a

/-- The granule that is a value copy. -/
def Copy.granule : Copy → GranuleName
  | .a => .copyA
  | .b => .copyB

/-- The code of a copy (11.3). -/
def Copy.code : Copy → BitVec 1
  | .a => 0
  | .b => 1

/-- The record with a granule's cells fully erased, or else left beyond correction (R10). -/
def Record.unset (r : Record) (g : GranuleName) (erased : Bool) : Record :=
  match g with
  | .identity => { r with identity := if erased then .blank else .damaged }
  | .copyA => { r with copyA := if erased then .blank else .damaged }
  | .copyB => { r with copyB := if erased then .blank else .damaged }

/-- The record with a granule's cells taken from another. -/
def Record.take (r : Record) (g : GranuleName) (left : Record) : Record :=
  match g with
  | .identity => { r with identity := left.identity }
  | .copyA => { r with copyA := left.copyA }
  | .copyB => { r with copyB := left.copyB }

/-- A record whose erase has come to a granule: the granules before it, in the order identity, copy A, copy B,
are blank, and it is fully erased or else beyond correction (R11). -/
def Record.erasedTo (r : Record) (g : GranuleName) (erased : Bool) : Record :=
  match g with
  | .identity => r.unset .identity erased
  | .copyA => (r.unset .identity true).unset .copyA erased
  | .copyB => ((r.unset .identity true).unset .copyA true).unset .copyB erased

/-- The place of a granule in the order of an erase (R11). -/
def GranuleName.place : GranuleName → Nat
  | .identity => 0
  | .copyA => 1
  | .copyB => 2

/-- The place of a progress in the course of a step. -/
def Progress.place : Progress → Nat
  | .erasing g => 2 * g.place
  | .erased g => 2 * g.place + 1
  | .programming => 6
  | .verifying _ => 7

/-- A granule after what befell its cells (R1, R2): a blank granule with one or two cells in error reads
bad, and contents bear one cell in error and no more; `left` is what three and more leave. -/
def Granule.after {α : Type} (g : Granule α) (change : CellChange) (left : Record → Granule α) :
    Granule α :=
  match change, g with
  | .asHeld, g => g
  | .oneCellFails, .cells x false => .cells x true
  | .oneCellFails, _ => .damaged
  | .twoCellsFail, _ => .damaged
  | .manyCellsFail r, _ => left r

/-- A record after what befell the cells of one of its granules. -/
def Record.after (r : Record) (g : GranuleName) (change : CellChange) : Record :=
  match g with
  | .identity => { r with identity := r.identity.after change Record.identity }
  | .copyA => { r with copyA := r.copyA.after change Record.copyA }
  | .copyB => { r with copyB := r.copyB.after change Record.copyB }

end Sys2Proof

namespace Sys2Proof.Machine

/-! ### One update per component -/

/-- The state with its engine changed by `f`. -/
def State.onEngine (f : Engine → Engine) (s : State) : State := { s with engine := f s.engine }

/-- The state with its directory changed by `f`. -/
def State.onDir (f : Directory → Directory) (s : State) : State := { s with dir := f s.dir }

/-- The state with its tariff unit changed by `f`. -/
def State.onTariff (f : Tariff → Tariff) (s : State) : State := { s with tariff := f s.tariff }

/-- The state with its shared settings changed by `f`. -/
def State.onSettings (f : Settings → Settings) (s : State) : State :=
  { s with settings := f s.settings }

/-- The state with its port changed by `f`. -/
def State.onPort (f : Port → Port) (s : State) : State := { s with port := f s.port }

/-- The state with its attention unit changed by `f`. -/
def State.onAttention (f : Attention → Attention) (s : State) : State :=
  { s with attention := f s.attention }

/-- The state with its pins changed by `f`. -/
def State.onPins (f : Pins → Pins) (s : State) : State := { s with pins := f s.pins }

/-- The state with its record array changed by `f`. -/
def State.onStore (f : List (Slot × Record) → List (Slot × Record)) (s : State) : State :=
  { s with store := f s.store }

/-- The controller of a line. -/
def State.line (s : State) (l : LineIx) : Line := s.lines[l]

/-- The state with a line's controller changed by `f`. -/
def State.onLine (l : LineIx) (f : Line → Line) (s : State) : State :=
  { s with lines := s.lines.set l.val (f (s.line l)) l.isLt }

/-- Neither reset lasts: the supply is valid and RESETN deasserted (R177). -/
def Pins.released (p : Pins) : Bool := decide (p.supply = .valid) && !p.resetn

/-- Whether a power-on or RESETN reset lasts, or the part has no supply (R177). -/
def State.inReset (s : State) : Bool := !s.pins.released

/-! ### Position contexts and their orders -/

/-- The context of a position. -/
def State.ctx (s : State) (p : Pos) : Position := s.positions[p]

/-- The order that shows a refusal: the refused verdict, with the refused balance for LOW and EMPTY
(R58, R82). -/
def Position.refusedOrder (c : Position) : Order :=
  { verdict := c.refusedVerdict, warn := false,
    shown := if c.refusedVerdict = .refusedLow ∨ c.refusedVerdict = .refusedEmpty
      then c.refusedBalance else 0 }

/-- The order a position shows in its present state (R58, R82). In METERED the warn flag, and in CUT the
cut verdict, are what the order already holds. -/
def Position.currentOrder (c : Position) : Order :=
  match c.state with
  | .off | .lost | .vacant | .reading => { verdict := .none, warn := false, shown := 0 }
  | .checking | .waiting => { verdict := .wait, warn := false, shown := 0 }
  | .held => { verdict := .accepted, warn := false, shown := c.working }
  | .refused => c.refusedOrder
  | .metered => { verdict := .accepted, warn := c.order.warn, shown := c.working }
  | .grace =>
    match c.call with
    | some k =>
      if k.sub = .refused then c.refusedOrder
      else { verdict := .grace, warn := false, shown := k.amount }
    | none => { verdict := .grace, warn := false, shown := 0 }
  | .cut => { verdict := c.order.verdict, warn := false, shown := 0 }

/-- The state with a position's context changed by `f`, its order kept current (R58). -/
def State.onCtx (p : Pos) (f : Position → Position) (s : State) : State :=
  let c := f (s.ctx p)
  { s with positions := s.positions.set p.val { c with order := c.currentOrder } p.isLt }

/-- The eight slots of a line. -/
def allSlots : List (Fin 8) := [0, 1, 2, 3, 4, 5, 6, 7]

/-- The six lines, A to F. -/
def allLines : List LineIx := [0, 1, 2, 3, 4, 5]

/-- The position of slot k of a line: position 8i + k + 1, so index 8i + k (00_scope.md). -/
def posOf (l : LineIx) (k : Fin 8) : Pos := ⟨8 * l.val + k.val, by omega⟩

/-- The line that serves a position. -/
def lineOf (p : Pos) : LineIx := ⟨p.val / 8, by omega⟩

/-- The positions of a line in slot order. -/
def positionsOf (l : LineIx) : List Pos := allSlots.map (posOf l)

/-- The 48 positions in order. -/
def allPositions : List Pos := allLines.flatMap positionsOf

/-- A position's number, 1 to 48, as software sees it. -/
def Pos.number (p : Pos) : BitVec 6 := BitVec.ofNat 6 (p.val + 1)

/-- A position or none as software sees it: 0 for none (11.3). -/
def posCode : Option Pos → BitVec 6
  | none => 0
  | some p => Pos.number p

/-! ### Coded items (11.2) -/

/-- The class of a code; 3 is unassigned. -/
def classOfCode (c : BitVec 2) : Option CardClass :=
  match c.toNat with
  | 0 => some .standard
  | 1 => some .concession
  | 2 => some .service
  | _ => none

/-- The card state of a stored code. -/
def stateOfCode (c : BitVec 3) : Option CardState :=
  match c.toNat with
  | 0 => some .fresh
  | 1 => some .active
  | 2 => some .empty
  | 3 => some .blocked
  | _ => none

/-- The last position of a stored code: 0 none, 1 to 48, else no such code. -/
def lastPositionOfCode (c : BitVec 6) : Option (Option Pos) :=
  if c = 0 then some none
  else if h : c.toNat - 1 < 48 then some (some ⟨c.toNat - 1, h⟩) else none

/-- The code of a condition. -/
def Condition.code : Condition → BitVec 2
  | .good => 0
  | .issuing => 1
  | .damaged => 2
  | .worn => 3

/-- The code of a reply (11.2). -/
def ReplyCode.code : ReplyCode → BitVec 6
  | .ok => 0
  | .badKind => 1
  | .notReady => 2
  | .noWriteEnable => 3
  | .locked => 4
  | .range => 5
  | .unknownCard => 6
  | .exists => 7
  | .inUse => 8
  | .storeFull => 9
  | .queueFull => 10
  | .pending => 11
  | .badState => 12
  | .full => 13
  | .noReply => 63

/-- The code of a verdict (11.1). -/
def Verdict.code : Verdict → BitVec 4
  | .none => 0
  | .wait => 1
  | .accepted => 2
  | .refusedUnknown => 3
  | .refusedEmpty => 4
  | .refusedBlocked => 5
  | .refusedExpired => 6
  | .refusedInUse => 7
  | .refusedFault => 8
  | .refusedLow => 9
  | .grace => 10
  | .cutExhausted => 11
  | .cutBarred => 12
  | .cutBlocked => 13
  | .cutUnpaid => 14
  | .cutOther => 15

/-- The code of a position state (11.2). -/
def PosState.code : PosState → BitVec 4
  | .off => 0
  | .vacant => 1
  | .reading => 2
  | .checking => 3
  | .waiting => 4
  | .held => 5
  | .refused => 6
  | .metered => 7
  | .grace => 8
  | .cut => 9
  | .lost => 10

/-- The code of a GRACE card sub-state (11.2). -/
def SubState.code : SubState → BitVec 3
  | .old => 0
  | .absent => 1
  | .reading => 2
  | .checking => 3
  | .refused => 4

/-- The code of a last-report-class (11.2). -/
def ReportClass.code : ReportClass → BitVec 3
  | .none => 0
  | .valid => 1
  | .slotFault => 2
  | .checkFault => 3
  | .positionFault => 4
  | .silent => 5

/-- The code of the port mode (11.2). -/
def Mode.code : Mode → BitVec 2
  | .running => 0
  | .starting => 1
  | .draining => 2
  | .inReset => 3

/-- The code of a line state (R56). -/
def LineState.code : LineState → BitVec 2
  | .off => 0
  | .blanking => 1
  | .running => 2
  | .faulted => 3

/-- The code of an entry kind (11.2). -/
def EntryKind.code : EntryKind → BitVec 2
  | .value => 0
  | .issue => 1
  | .retire => 2
  | .eraseSlot => 3

/-- The code of an entry origin (11.2). -/
def Origin.code : Origin → BitVec 2
  | .position => 0
  | .host => 1
  | .refresh => 2

/-! ### Granules and the record array (01) -/

/-- The field checks of an identity granule (R2), with the identity its contents stand for. -/
def RawIdentity.check (r : RawIdentity) : Option Identity :=
  match classOfCode r.classCode with
  | none => none
  | some cls =>
    if r.serial = 0 ∨ r.serial = 4294967295#32 ∨ r.faceValue = 0 ∨ Config.maxBalance < r.faceValue.toNat
    then none
    else some { serial := r.serial, cls := cls, faceValue := r.faceValue.toNat, issueDay := r.issueDay }

/-- The field checks of a value copy (R2), with the image and generation its contents stand for. -/
def RawValue.check (r : RawValue) : Option (Image × Gen) :=
  match stateOfCode r.stateCode, lastPositionOfCode r.lastPosition with
  | some st, some last =>
    if Config.maxBalance < r.balance.toNat then none
    else some ({ state := st, balance := r.balance.toNat, expiry := r.expiry, useCount := r.useCount,
                 lastPosition := last, lastUseDay := r.lastUseDay }, r.generation)
  | _, _ => none

/-- What the cells of an identity granule are programmed with (R4, log 10). -/
def Identity.raw (i : Identity) : RawIdentity :=
  { serial := i.serial, classCode := i.cls.code, faceValue := BitVec.ofNat 16 i.faceValue,
    issueDay := i.issueDay }

/-- What the cells of a value copy are programmed with (R6, R9, log 10). -/
def Image.raw (i : Image) (g : Gen) : RawValue :=
  { stateCode := i.state.code.setWidth 3, balance := BitVec.ofNat 16 i.balance, expiry := i.expiry,
    useCount := i.useCount, lastPosition := posCode i.lastPosition, lastUseDay := i.lastUseDay,
    generation := g }

/-- The contents of a valid outcome, good or corrected (R1). -/
def ReadOutcome.valid {α : Type} : ReadOutcome α → Option α
  | .good x => some x
  | .corrected x => some x
  | .bad => none
  | .blank => none

/-- Whether an outcome is corrected. -/
def ReadOutcome.isCorrected {α : Type} : ReadOutcome α → Bool
  | .corrected _ => true
  | _ => false

/-- Reading an identity granule. -/
def readIdentity (g : Granule RawIdentity) : ReadOutcome Identity := g.read RawIdentity.check

/-- Reading a value copy: its image and generation. -/
def readValue (g : Granule RawValue) : ReadOutcome (Image × Gen) := g.read RawValue.check

/-- A slot with every granule blank. -/
def blankRecord : Record := { identity := .blank, copyA := .blank, copyB := .blank }

/-- The record of a slot. A slot that the list does not name is blank (log 2). -/
def recordAt : List (Slot × Record) → Slot → Record
  | [], _ => blankRecord
  | (k, r) :: rest, x => if k = x then r else recordAt rest x

/-- The array with the record of a slot replaced, in canonical form. -/
def putRecord : List (Slot × Record) → Slot → Record → List (Slot × Record)
  | [], x, r => if r = blankRecord then [] else [(x, r)]
  | (k, v) :: rest, x, r =>
    if x < k then (if r = blankRecord then (k, v) :: rest else (x, r) :: (k, v) :: rest)
    else if x = k then (if r = blankRecord then rest else (x, r) :: rest)
    else (k, v) :: putRecord rest x r

/-- Whether the array's list is in canonical form: slots strictly rising and no blank record listed. -/
def storeWf : List (Slot × Record) → Bool
  | [] => true
  | [(_, r)] => decide (r ≠ blankRecord)
  | (k, r) :: (l, q) :: rest => decide (r ≠ blankRecord) && decide (k < l) && storeWf ((l, q) :: rest)

/-- The record of a slot in the state's array. -/
def State.record (s : State) (x : Slot) : Record := recordAt s.store x

/-- The state with a slot's record changed by `f`. -/
def State.onRecord (x : Slot) (f : Record → Record) (s : State) : State :=
  s.onStore fun st => putRecord st x (f (recordAt st x))

/-- Whether value copy X is newer than value copy Y by their generations (R8). -/
def newer (gx gy : Gen) : Bool := decide (1 ≤ (gx - gy).toNat) && decide ((gx - gy).toNat ≤ 127)

/-- The live copy of a record from what its two copies read, with its image and generation (R8): equal
generations, and generations 128 apart, take A. -/
def liveOf (a b : Option (Image × Gen)) : Option (Copy × Image × Gen) :=
  match a, b with
  | some (ia, ga), some (ib, gb) => if newer gb ga then some (.b, ib, gb) else some (.a, ia, ga)
  | some (ia, ga), none => some (.a, ia, ga)
  | none, some (ib, gb) => some (.b, ib, gb)
  | none, none => none

/-! ### Reads of the store engine (07) -/

/-- The corrected-read counter after the outcomes of a read, stopping at 65,535 (R144). -/
def State.countCorrected (corrected : Bool) (s : State) : State :=
  s.onEngine fun e => if corrected then { e with corrected := min 65535 (e.corrected + 1) } else e

/-- The granule that a step writes; none for an erase of a slot (R137, R141, R142). -/
def FlightStep.target : FlightStep → Option GranuleName
  | .writeValue target _ => some target.granule
  | .issueIdentity => some .identity
  | .issueCopyA => some .copyA
  | .issueErase | .erase => none

/-- The first part of a step: the erase of its granule, or of the identity granule (R11, R137). -/
def FlightStep.first (step : FlightStep) : Progress := .erasing (step.target.getD .identity)

/-- A progress said of a step: a write erases its own target only, and an erase of a slot has no program. -/
def FlightStep.clip (step : FlightStep) (p : Progress) : Progress :=
  match step.target, p with
  | some g, .erasing _ => .erasing g
  | some g, .erased _ => .erased g
  | none, .programming => .erased .copyB
  | _, p => p

/-- What a step has left in the cells of its slot when it stands at a progress (R10, R11, R131). -/
def FlightStep.cells (step : FlightStep) (p : Progress) (r : Record) : Record :=
  match step.target, p with
  | some g, .erasing _ => r.unset g false
  | some g, .erased _ => r.unset g true
  | some g, .programming => r.unset g false
  | some g, .verifying left => r.take g left
  | none, .erasing g => r.erasedTo g false
  | none, .erased g => r.erasedTo g true
  | none, .programming => r.erasedTo .copyB true
  | none, .verifying left => left

/-- Where a step known to have come to `known` stands when it is found at `p`: never earlier than known. -/
def FlightStep.reached (step : FlightStep) (known p : Progress) : Progress :=
  if known.place < (step.clip p).place then step.clip p else known

/-- The step in flight is found to stand at `p`, and its slot's cells with it; where it is known to have come as
far, nothing changes. -/
def State.standAt (p : Progress) (s : State) : State :=
  match s.engine.flight with
  | none => s
  | some f =>
    let q := f.step.reached f.progress p
    if q = f.progress then s
    else
      (s.onRecord f.entry.slot (f.step.cells q)).onEngine fun e =>
        { e with flight := some { f with progress := q } }

/-- A read suspends the step in flight, if it runs, where it stands: a free value, and no earlier than it is known
to have come (R131, log 11). A suspended step stays where it stands. -/
def State.suspend (s : State) : State :=
  if s.engine.flight.isNone ∨ s.engine.suspended = true then s
  else
    { (s.standAt (Config.stepProgress s.moments)).onEngine (fun e => { e with suspended := true }) with
      moments := s.moments + 1 }

/-- A read request arrives (R130, R131): it is served at once when no read is in flight, suspending the
step in flight if there is one; else it joins the tail of the read list. -/
def State.requestRead (r : ReadRequest) (s : State) : State :=
  if s.engine.reading.isSome then s.onEngine fun e => { e with readList := e.readList ++ [r] }
  else s.suspend.onEngine fun e => { e with reading := some r }

/-- What the engine does when the read in flight has completed (R131): it serves the head of the read
list, else it resumes the suspended step. -/
def State.serveNext (s : State) : State :=
  s.onEngine fun e =>
    match e.readList with
    | r :: rest => { e with reading := some r, readList := rest }
    | [] => { e with reading := none, suspended := false }

/-! ### Words of replies and loads -/

/-- A number as a 16-bit word. -/
def toWord (n : Nat) : Word := BitVec.ofNat 16 n

/-- The high and low half of a serial (11.3). -/
def serialWords (x : Serial) : List Word := [x.extractLsb' 16 16, x.extractLsb' 0 16]

/-! ### Taking a frame (R149 to R151, R156, R157) -/

/-- The held reply becomes a code and data (R150). -/
def State.answer (code : ReplyCode) (data : Word) (s : State) : State :=
  s.onPort fun p => { p with reply := { code := code, data := data } }

/-- A latched action is answered: the latch is cleared, whatever the answer (R156). -/
def State.answerLatched (code : ReplyCode) (data : Word) (s : State) : State :=
  (s.answer code data).onPort fun p => { p with latch := false }

/-- Loading the readout buffer: the words replace the contents and the pointer goes to 0 (R170). -/
def State.load (words : List Word) (s : State) : State :=
  s.onPort fun p => { p with buffer := words, pointer := 0 }

/-- Whether the transfer now ending delivers an unsent answer: it began with the mark set and the result
unsent (R151). A frame whose start was not given counts as a whole transfer (log 7). -/
def Port.delivers (p : Port) : Bool :=
  match p.transfer with
  | some t => t.owned && t.unsent
  | none => p.ownerMark && decide (p.result = .unsent)

/-- An accepted transfer ends: the delivery test, and the reply-owner mark as the address gives it
(R149, R151). -/
def State.endTransfer (addressed : Bool) (s : State) : State :=
  s.onPort fun p =>
    { p with result := if p.delivers then .none else p.result, transfer := none, ownerMark := addressed }

/-- A frame addressed to the part ends: it is acted on by `act` when the result state is none after the
delivery test, and is passed over otherwise (R151). While a reset lasts the part takes no transfer
(R177). -/
def takeFrame (act : State → State) (s : State) : State :=
  if s.inReset then s
  else
    let t := s.endTransfer true
    if t.port.result = .none then act t else t

/-- A kind that only RUNNING serves (R157). -/
def whenRunning (act : State → State) (s : State) : State :=
  if s.port.mode = .running then act s else s.answer .notReady 0

/-- A latched action (R156, R157): NOT READY outside RUNNING, NO WRITE ENABLE with the latch clear. -/
def latched (act : State → State) (s : State) : State :=
  if s.port.mode ≠ .running then s.answerLatched .notReady 0
  else if s.port.latch then act s
  else s.answerLatched .noWriteEnable 0

/-- An event of the part's own blocks: it does not arise while a reset lasts (R177). -/
def unlessReset (act : State → State) (s : State) : State := if s.inReset then s else act s

/-- An action on several positions, one after another. -/
def forPositions (ps : List Pos) (f : Pos → State → State) (s : State) : State :=
  ps.foldl (fun t p => f p t) s

/-! ### The timebase on an empty queue (log 5) -/

/-- A call a tenth of a second later: each running timer has a tenth less left, down to 0. -/
def Call.tick (k : Call) : Call :=
  { k with intervalTimer := k.intervalTimer.map (· - 1), graceTimer := k.graceTimer.map (· - 1) }

/-- A tenth of a second passes with no command: the clock counts its part of a second, up to the tenth
before the step that CLOCK_STEP is, and the running timers of the calls count down (R91, R99, R122).
DESIGN CHOICE (log 5). -/
def State.tick (s : State) : State :=
  unlessReset (fun s =>
    forPositions allPositions (fun p => State.onCtx p fun c => { c with call := c.call.map Call.tick })
      (s.onTariff fun t => { t with part := min 9 (t.part + 1) })) s

end Sys2Proof.Machine
end

