-- ==== Sys2Proof/Machine/Operands.lean ====
section
/-!
DEFINITION. The operand forms of the host frames: a number in a range, a line index, a position, a region,
a slot, a class code, and the clamped values (R182).
-/

namespace Sys2Proof.Machine

/-- A whole-operand field within lo to hi, compared as the full 20-bit number (R182). -/
def inRange (lo hi : Nat) (op : BitVec 20) : Option Nat :=
  if lo ≤ op.toNat ∧ op.toNat ≤ hi then some op.toNat else none

/-- A line index: 0 to 5, else out of range (R56, R168). -/
def lineOperand (l : BitVec 3) : Option LineIx :=
  if h : l.toNat < 6 then some ⟨l.toNat, h⟩ else none

/-- A position operand: 1 to 48, else out of range (R78). -/
def positionOperand (op : BitVec 20) : Option Pos :=
  if op.toNat = 0 then none
  else if h : op.toNat - 1 < 48 then some ⟨op.toNat - 1, h⟩ else none

/-- A region operand: 0 to 15 (R18). -/
def regionOperand (op : BitVec 20) : Option (Fin 16) :=
  if h : op.toNat < 16 then some ⟨op.toNat, h⟩ else none

/-- A slot operand: 0 to 8,191 (R154). -/
def slotOperand (op : BitVec 20) : Option Slot :=
  if h : op.toNat < 8192 then some ⟨op.toNat, h⟩ else none

/-- A class code operand: 0, 1 or 2 (R154, R182). -/
def classOperand (op : BitVec 20) : Option CardClass :=
  match op.toNat with
  | 0 => some .standard
  | 1 => some .concession
  | 2 => some .service
  | _ => none

/-- A value clamped into lo to hi (R43, R114). -/
def clamp (lo hi n : Nat) : Nat := if n < lo then lo else if hi < n then hi else n

/-- The region of a slot: region n holds slots 512n to 512n + 511 (R18). -/
def regionOf (x : Slot) : Fin 16 := ⟨x.val / 512, by omega⟩

/-- Whether a region is locked (R18). -/
def State.regionLocked (s : State) (r : Fin 16) : Bool := s.engine.locks.getLsbD r.val

/-- Whether a slot lies in a locked region (R19). -/
def State.slotLocked (s : State) (x : Slot) : Bool := s.regionLocked (regionOf x)

end Sys2Proof.Machine
end

