-- ==== Sys2Proof/Machine/Flags.lean ====
section
/-!
DEFINITION. The attention unit: its seven flags, the events that set them, the ATTN pulses and pin, and
the global status bits (R152, R173, R174).
-/

namespace Sys2Proof.Machine

/-- The seven attention flags (R173). -/
inductive Flag where
  | hotCard | storeFault | lineFault | positionLost | tariffFault | takingsFull | admission
  deriving DecidableEq, Repr

/-- A flag's bit in masks and flag words (11.2). -/
def Flag.bit : Flag → Nat
  | .hotCard => 0
  | .storeFault => 1
  | .lineFault => 2
  | .positionLost => 3
  | .tariffFault => 4
  | .takingsFull => 5
  | .admission => 6

/-- Whether a flag is set. -/
def Attention.isSet (a : Attention) : Flag → Bool
  | .hotCard => a.hotCard.isSome
  | .storeFault => a.storeFault.isSome
  | .lineFault => a.lineFault.isSome
  | .positionLost => a.positionLost.isSome
  | .tariffFault => a.tariffFault.isSome
  | .takingsFull => a.takingsFull
  | .admission => a.admission.isSome

/-- The seven flags as a word, in the bit order of 11.2. -/
def Attention.flags (a : Attention) : BitVec 7 :=
  BitVec.ofBool (a.isSet .admission) ++ BitVec.ofBool (a.isSet .takingsFull) ++
  BitVec.ofBool (a.isSet .tariffFault) ++ BitVec.ofBool (a.isSet .positionLost) ++
  BitVec.ofBool (a.isSet .lineFault) ++ BitVec.ofBool (a.isSet .storeFault) ++
  BitVec.ofBool (a.isSet .hotCard)

/-- Whether some flag is enabled and set (R174). -/
def Attention.anyEnabled (a : Attention) : Bool := decide (a.flags &&& a.mask ≠ 0)

/-- While the count is above 0 and no pulse is being driven, a pulse begins and the count falls by 1
(R174). -/
def Attention.beginPulse (a : Attention) : Attention :=
  if 0 < a.pulses ∧ a.driving = false then { a with driving := true, pulses := a.pulses - 1 } else a

/-- The unit after an event of flag `f` that made `new` of `old`: in PULSE mode a clear-to-set event of an
enabled flag raises the count by 1, stopping at 7 (R174). -/
def Attention.afterEvent (f : Flag) (old new : Attention) : Attention :=
  if new.mode = .pulse ∧ old.isSet f = false ∧ new.mask.getLsbD f.bit = true then
    { new with pulses := min 7 (new.pulses + 1) }.beginPulse
  else new

/-- A flag's event: `update` sets the flag and its detail (R173). -/
def State.raise (f : Flag) (update : Attention → Attention) (s : State) : State :=
  s.onAttention fun a => a.afterEvent f (update a)

/-- HOT CARD with the latest sighting (R33, R173). -/
def State.raiseHotCard (serial : Serial) (p : Pos) (s : State) : State :=
  s.raise .hotCard fun a => { a with hotCard := some (serial, p) }

/-- STORE FAULT with the latest fault's slot, and the entry's kind and origin or the mark that a read found
it (R173). -/
def State.raiseStoreFault (x : Slot) (cause : Option (EntryKind × Origin)) (s : State) : State :=
  s.raise .storeFault fun a => { a with storeFault := some { slot := x, cause := cause } }

/-- LINE FAULT: the line joins the faulted-line set (R173). -/
def State.raiseLineFault (l : LineIx) (s : State) : State :=
  s.raise .lineFault fun a => { a with lineFault := some (a.lineFault.getD 0 ||| 1#6 <<< l.val) }

/-- POSITION LOST: the position joins the lost-position set (R173). -/
def State.raisePositionLost (p : Pos) (s : State) : State :=
  s.raise .positionLost fun a => { a with positionLost := some (a.positionLost.getD 0 ||| 1#48 <<< p.val) }

/-- TARIFF FAULT with the latest entry's zone and band (R116, R173). -/
def State.raiseTariffFault (zone : BitVec 4) (band : BitVec 2) (s : State) : State :=
  s.raise .tariffFault fun a => { a with tariffFault := some (zone, band) }

/-- TAKINGS FULL (R126, R173). -/
def State.raiseTakingsFull (s : State) : State :=
  s.raise .takingsFull fun a => { a with takingsFull := true }

/-- ADMISSION with its count, from 1, stopping at 65,535 (R173). -/
def State.raiseAdmission (s : State) : State :=
  s.raise .admission fun a => { a with admission := some (min 65535 (a.admission.getD 0 + 1)) }

/-- CLEAR ATTENTION: each flag whose mask bit is 1 is cleared with its detail (R169, R173). -/
def Attention.clear (mask : BitVec 7) (a : Attention) : Attention :=
  { a with
    hotCard := if mask.getLsbD 0 then none else a.hotCard
    storeFault := if mask.getLsbD 1 then none else a.storeFault
    lineFault := if mask.getLsbD 2 then none else a.lineFault
    positionLost := if mask.getLsbD 3 then none else a.positionLost
    tariffFault := if mask.getLsbD 4 then none else a.tariffFault
    takingsFull := if mask.getLsbD 5 then false else a.takingsFull
    admission := if mask.getLsbD 6 then none else a.admission }

/-- SET ATTENTION MODE: mode and mask are replaced (R174). A mode that stays PULSE keeps the pulse count
and the pulse being driven; a change of mode leaves none. -/
def Attention.setMode (mode : AttnMode) (mask : BitVec 7) (a : Attention) : Attention :=
  if mode = .pulse ∧ a.mode = .pulse then { a with mask := mask }
  else { a with mode := mode, mask := mask, pulses := 0, driving := false }

/-- The bit of an ATTN mode (11.2). -/
def AttnMode.code : AttnMode → BitVec 1
  | .level => 0
  | .pulse => 1

/-- The READ ATTENTION data: mode, enable bits, flags (11.2). -/
def Attention.word (a : Attention) : Word :=
  0#1 ++ a.mode.code ++ a.mask ++ a.flags

/-- Whether the ATTN pin is active (R174): never while a reset lasts; in LEVEL mode with some flag enabled
and set; in PULSE mode while a pulse is driven. -/
def State.attn (s : State) : Bool :=
  if s.inReset then false
  else match s.attention.mode with
    | .level => s.attention.anyEnabled
    | .pulse => s.attention.driving

/-- The six global status bits: RS, RDY, ATN, FE, PL, WE (R152, 11.2). -/
def State.status (s : State) : BitVec 6 :=
  BitVec.ofBool s.port.rs ++ BitVec.ofBool s.dir.ready ++ BitVec.ofBool s.attention.anyEnabled ++
  BitVec.ofBool s.port.fe ++ BitVec.ofBool s.pins.pwrlow ++ BitVec.ofBool s.port.latch

/-- SET ATTENTION MODE (R169, R174): replaces the mode and mask. -/
def execSetAttentionMode (pulse : Bool) (mask : BitVec 7) (s : State) :
    Host.Outcome State Fault Refusal :=
  done (takeFrame (whenRunning fun s =>
    (s.onAttention (Attention.setMode (if pulse then .pulse else .level) mask)).answer .ok
      (0#8 ++ BitVec.ofBool pulse ++ mask)) s)

/-- CLEAR ATTENTION (R169): answered with the flags after the action. -/
def execClearAttention (mask : BitVec 7) (s : State) : Host.Outcome State Fault Refusal :=
  done (takeFrame (whenRunning fun s =>
    let t := s.onAttention (Attention.clear mask)
    t.answer .ok (t.attention.flags.setWidth 16)) s)

/-- READ ATTENTION (R169): flags, enable bits and mode; it changes nothing. -/
def execReadAttention (s : State) : Host.Outcome State Fault Refusal :=
  done (takeFrame (whenRunning fun s => s.answer .ok s.attention.word) s)

/-- The fourteen words of READ ATTENTION DETAIL (R169, 11.3). Fields of a clear flag read 0. -/
def State.attentionWords (s : State) : List Word :=
  let a := s.attention
  let hot := a.hotCard
  let lost := a.positionLost.getD 0
  [a.word] ++ serialWords ((hot.map Prod.fst).getD 0) ++
  [ (posCode (hot.map Prod.snd)).setWidth 16,
    (a.storeFault.map fun f => toWord f.slot.val).getD 0,
    match a.storeFault with
    | none => 0
    | some f =>
      match f.cause with
      | none => 0x8000#16
      | some (kind, origin) => 0#6 ++ kind.code ++ 0#6 ++ origin.code,
    (a.lineFault.getD 0).setWidth 16,
    lost.extractLsb' 0 16, lost.extractLsb' 16 16, lost.extractLsb' 32 16,
    match a.tariffFault with
    | none => 0
    | some (zone, band) => 0#10 ++ zone ++ band,
    toWord (a.admission.getD 0), toWord s.engine.corrected, toWord s.dir.orphans ]

/-- READ ATTENTION DETAIL (R169): fourteen words into the readout buffer. -/
def execReadAttentionDetail (s : State) : Host.Outcome State Fault Refusal :=
  done (takeFrame (whenRunning fun s => (s.load s.attentionWords).answer .ok 14) s)

/-- An ATTN pulse ends, and the next counted pulse begins if the count is above 0 (R174). Without a pulse
being driven the event does not occur (log 6). -/
def execAttnPulseEnd (s : State) : Host.Outcome State Fault Refusal :=
  done (unlessReset (State.onAttention fun a =>
    if a.mode = .pulse ∧ a.driving = true then { a with driving := false }.beginPulse else a) s)

end Sys2Proof.Machine
end

