-- ==== Sys2Proof/Machine/Tariff.lean ====
section
/-!
DEFINITION. The tariff unit: the tariff table and its check, the entry in force, the band schedule, the
clock and the takings, with their commands (06).
-/

namespace Sys2Proof.Machine

/-! ### The table and its check -/

/-- Whether a field holds an odd number of ones. -/
def oddOnes {n : Nat} (x : BitVec n) : Bool := (msbFirst x).foldl (· != ·) false

/-- Whether the five fields other than the check hold an odd number of ones. The manual gives the valid mark no
code: VALID counts as a one (DESIGN CHOICE, log 36). -/
def TariffEntry.fieldsOdd (e : TariffEntry) : Bool :=
  e.valid != (oddOnes e.initialCharge != (oddOnes e.interval !=
    (oddOnes e.standardRate != oddOnes e.concessionRate)))

/-- The entry with its check computed afresh: all six fields together hold an odd number of ones
(R116). -/
def TariffEntry.withCheck (e : TariffEntry) : TariffEntry := { e with check := !e.fieldsOdd }

/-- Whether the check verifies: the count of ones is odd (R116). -/
def TariffEntry.verifies (e : TariffEntry) : Bool := e.fieldsOdd != e.check

/-- Whether an entry is usable: VALID, and its check verifies (R117). -/
def TariffEntry.usable (e : TariffEntry) : Bool := e.valid && e.verifies

/-- The place of the entry for a zone 1 to 15 and a band (R113). Zone 0 names no entry and is never
asked for. -/
def entryIndex (zone : BitVec 4) (band : BitVec 2) : Fin 60 :=
  ⟨(zone.toNat - 1) * 4 + band.toNat, by have := zone.isLt; have := band.isLt; omega⟩

/-- The entry for a zone and a band. -/
def Tariff.entry (t : Tariff) (zone : BitVec 4) (band : BitVec 2) : TariffEntry :=
  t.table[entryIndex zone band]

/-- The tariff unit with one entry replaced. -/
def Tariff.putEntry (t : Tariff) (zone : BitVec 4) (band : BitVec 2) (e : TariffEntry) : Tariff :=
  { t with table := t.table.set (entryIndex zone band).val e (entryIndex zone band).isLt }

/-- The entry in force for a zone, if it is usable (R117). -/
def State.entryInForce (s : State) (zone : BitVec 4) : Option TariffEntry :=
  let e := s.tariff.entry zone s.tariff.band
  if e.usable then some e else none

/-- What a read of the entry in force does: a check that fails raises TARIFF FAULT with the zone and band,
and leaves the entry as it stands (R116). -/
def State.afterTariffRead (zone : BitVec 4) (s : State) : State :=
  if (s.tariff.entry zone s.tariff.band).verifies then s
  else s.raiseTariffFault zone s.tariff.band

/-- The rate of an entry for a card's class (R83). -/
def TariffEntry.rateFor (e : TariffEntry) : CardClass → Nat
  | .standard => e.standardRate.toNat
  | .concession => e.concessionRate.toNat
  | .service => e.standardRate.toNat

/-! ### The band schedule -/

/-- The band of the latest entry of an ascending schedule that starts at or before minute m, over `found`
for an earlier one. -/
def latestBand (m : Nat) : List (Nat × BitVec 2) → Option (BitVec 2) → Option (BitVec 2)
  | [], found => found
  | (start, band) :: rest, found => latestBand m rest (if start ≤ m then some band else found)

/-- The current band by the schedule and the time of day (R120). -/
def bandAt (schedule : List (Nat × BitVec 2)) (second : Nat) : BitVec 2 :=
  match latestBand (second / 60) schedule none with
  | some b => b
  | none => (schedule.getLast?.map Prod.snd).getD 0

/-- The tariff unit with its current band recomputed (R121). -/
def Tariff.withBand (t : Tariff) : Tariff := { t with band := bandAt t.schedule t.second }

/-- The schedule with an entry put in, in place of one with the same start minute, else at the place its
start minute gives (R118). -/
def putBand (minute : Nat) (band : BitVec 2) : List (Nat × BitVec 2) → List (Nat × BitVec 2)
  | [] => [(minute, band)]
  | (m, b) :: rest =>
    if minute < m then (minute, band) :: (m, b) :: rest
    else if minute = m then (minute, band) :: rest
    else (m, b) :: putBand minute band rest

/-- Whether the schedule has an entry with a start minute. -/
def hasMinute (minute : Nat) (schedule : List (Nat × BitVec 2)) : Bool :=
  schedule.any fun e => e.1 == minute

/-- The data of WRITE BAND and CLEAR BAND: entries held and current band (11.2). -/
def Tariff.bandWord (t : Tariff) : Word :=
  0#8 ++ BitVec.ofNat 4 t.schedule.length ++ 0#2 ++ t.band

/-! ### The clock and the takings -/

/-- Whether the clock is UNSET: until both SET DAY and SET TIME have been accepted (R123). -/
def Tariff.unset (t : Tariff) : Bool := !(t.daySet && t.timeSet)

/-- The clock's day as its users take it: 0 while the clock is UNSET (R123). -/
def State.today (s : State) : BitVec 16 := if s.tariff.unset then 0 else s.tariff.day

/-- The place of the counter a debit adds to: that of the call's zone, or the service counter (R126). -/
def counterIndex (cls : CardClass) (zone : BitVec 4) : Fin 16 :=
  match cls with
  | .service => 15
  | _ => ⟨zone.toNat - 1, by have := zone.isLt; omega⟩

/-- The units of a debit are counted: the counter saturates, and TAKINGS FULL is raised whenever an
addition leaves it at its greatest value; a debit of 0 adds nothing (R126). -/
def State.addTakings (cls : CardClass) (zone : BitVec 4) (units : Nat) (s : State) : State :=
  if units = 0 then s
  else
    let i := counterIndex cls zone
    let sum := min Config.maxTakings (s.tariff.takings[i] + units)
    let t := s.onTariff fun t => { t with takings := t.takings.set i.val sum i.isLt }
    if sum = Config.maxTakings then t.raiseTakingsFull else t

/-- The clock steps one second; midnight rolls the day, which stops at 65,535 (R122). The current band is
recomputed when the second reached is the start of a schedule entry (R121). -/
def Tariff.clockStep (t : Tariff) : Tariff :=
  let u := if t.second + 1 < 86400 then { t with second := t.second + 1, part := 0 }
    else { t with second := 0, part := 0, day := if t.day = 0xFFFF#16 then t.day else t.day + 1 }
  if u.schedule.any fun e => 60 * e.1 == u.second then u.withBand else u

/-! ### Commands -/

/-- WRITE TARIFF (R114): the entry named by tariff A is replaced whole and becomes VALID. -/
def execWriteTariff (s : State) : Host.Outcome State Fault Refusal :=
  done (takeFrame (fun s =>
    let g := s.port.staging
    if g.zone = 0 then s.answer .range 0
    else if 255 < g.initialCharge.toNat then s.answer .range 0
    else
      let taken := clamp 5 6000 g.interval.toNat
      let e : TariffEntry :=
        { valid := true, initialCharge := g.initialCharge.setWidth 8, interval := BitVec.ofNat 13 taken,
          standardRate := g.standardRate, concessionRate := g.concessionRate, check := false }
      (s.onTariff fun t => t.putEntry g.zone g.band e.withCheck).answer .ok (toWord taken)) s)

/-- BAR ZONE (R115): one entry becomes INVALID, its other fields kept. -/
def execBarZone (zone : BitVec 4) (band : BitVec 2) (s : State) : Host.Outcome State Fault Refusal :=
  done (takeFrame (fun s =>
    if zone = 0 then s.answer .range 0
    else
      (s.onTariff fun t =>
        t.putEntry zone band { t.entry zone band with valid := false }.withCheck).answer .ok 0) s)

/-- WRITE BAND (R118): replaces or inserts a schedule entry and recomputes the band. -/
def execWriteBand (minute : BitVec 11) (band : BitVec 2) (s : State) :
    Host.Outcome State Fault Refusal :=
  done (takeFrame (fun s =>
    let sched := s.tariff.schedule
    if 1439 < minute.toNat then s.answer .range 0
    else if hasMinute minute.toNat sched = false ∧ Config.schedulePlaces ≤ sched.length then
      s.answer .full 0
    else
      let t := s.onTariff fun t =>
        { t with schedule := putBand minute.toNat band t.schedule }.withBand
      t.answer .ok t.tariff.bandWord) s)

/-- CLEAR BAND (R119): removes the entry with the start minute, if there is one. -/
def execClearBand (minute : BitVec 11) (s : State) : Host.Outcome State Fault Refusal :=
  done (takeFrame (fun s =>
    if 1439 < minute.toNat then s.answer .range 0
    else
      let t := s.onTariff fun t =>
        { t with schedule := t.schedule.filter fun e => e.1 != minute.toNat }.withBand
      t.answer .ok t.tariff.bandWord) s)

/-- SET DAY (R124). -/
def execSetDay (day : BitVec 16) (s : State) : Host.Outcome State Fault Refusal :=
  done (takeFrame (fun s =>
    let t := s.onTariff fun t => { t with day := day, daySet := true }
    t.answer .ok ((BitVec.ofBool t.tariff.unset).setWidth 16)) s)

/-- SET TIME (R125). -/
def execSetTime (second : BitVec 17) (s : State) : Host.Outcome State Fault Refusal :=
  done (takeFrame (fun s =>
    if 86399 < second.toNat then s.answer .range 0
    else
      let t := s.onTariff fun t =>
        { t with second := second.toNat, part := 0, timeSet := true }.withBand
      t.answer .ok ((BitVec.ofBool t.tariff.unset).setWidth 16)) s)

/-- The 32 words of a collection: each counter's high half and low half (R127). -/
def Tariff.takingsWords (t : Tariff) : List Word :=
  t.takings.toList.flatMap fun n => serialWords (BitVec.ofNat 32 n)

/-- COLLECT TAKINGS (R127): the counters are copied and set to 0 in one action. -/
def execCollectTakings (s : State) : Host.Outcome State Fault Refusal :=
  done (takeFrame (whenRunning fun s =>
    ((s.load s.tariff.takingsWords).onTariff fun t => { t with takings := Vector.replicate 16 0 }).answer
      .ok (toWord ((s.tariff.takings.toList.filter (· == Config.maxTakings)).length))) s)

/-- A step of the clock (R122, R177). -/
def execClockStep (s : State) : Host.Outcome State Fault Refusal :=
  done (unlessReset (State.onTariff Tariff.clockStep) s)

end Sys2Proof.Machine
end

