-- ==== Sys2Proof/Machine/Queue.lean ====
section
/-!
DEFINITION. The write queue and the directory's entries: lookups, newest images, coalescing, admission,
offers, and the changes of a record's condition (02, 07).
-/

namespace Sys2Proof.Machine

/-! ### Lookups in the directory -/

/-- The bucket of a serial (R23). -/
def bucket (x : Serial) : Nat := (x ^^^ (x >>> 10) ^^^ (x >>> 20)).toNat % 1024

/-- A bucket's chain: its entries in the order of insertion (R23, R24). -/
def Directory.chain (d : Directory) (b : Nat) : List DirEntry :=
  d.entries.filter fun e => bucket e.serial == b

/-- Lookup by serial: the walk of the serial's chain to the first entry that matches (R23). -/
def State.lookup (s : State) (x : Serial) : Option DirEntry :=
  (s.dir.chain (bucket x)).find? fun e => e.serial == x

/-- Lookup by slot (R23). -/
def State.bySlot (s : State) (x : Slot) : Option DirEntry := s.dir.entries.find? fun e => e.slot == x

/-- The state with the directory entry of a slot changed by `f`. -/
def State.onEntry (x : Slot) (f : DirEntry → DirEntry) (s : State) : State :=
  s.onDir fun d => { d with entries := d.entries.map fun e => if e.slot = x then f e else e }

/-- A claim in flight, with the claims held behind it, names a serial (R34, R35). -/
def State.claimPending (s : State) (x : Serial) : Bool := s.dir.claims.any fun c => c.serial == x

/-! ### The queue's entries -/

/-- Whether an entry is a VALUE entry. -/
def QueueEntry.isValue (e : QueueEntry) : Bool :=
  match e.work with
  | .value _ => true
  | _ => false

/-- The kind of an entry as STORE FAULT reports it. -/
def QueueEntry.kind (e : QueueEntry) : EntryKind :=
  match e.work with
  | .value _ => .value
  | .issue _ _ => .issue
  | .retire => .retire
  | .eraseSlot => .eraseSlot

/-- The image of a VALUE or ISSUE entry (R133). -/
def QueueEntry.image (e : QueueEntry) : Option Image :=
  match e.work with
  | .value i => some i
  | .issue _ i => some i
  | _ => none

/-- The entry in flight. -/
def State.inFlight (s : State) : Option QueueEntry := s.engine.flight.map Flight.entry

/-- Whether the record of a slot has a waiting VALUE entry. -/
def State.hasWaitingValue (s : State) (x : Slot) : Bool :=
  s.engine.waiting.any fun e => e.isValue && e.slot == x

/-- Whether the slot has any entry, waiting or in flight. -/
def State.hasEntry (s : State) (x : Slot) : Bool :=
  (s.engine.waiting.any fun e => e.slot == x) || (s.inFlight.any fun e => e.slot == x)

/-- The image of the newest queue entry for a slot: a waiting VALUE or ISSUE entry's, else that of a VALUE
or ISSUE entry in flight (R31, cases 1 and 2). -/
def State.queuedImage (s : State) (x : Slot) : Option Image :=
  match s.engine.waiting.find? fun e => e.image.isSome && e.slot == x with
  | some e => e.image
  | none =>
    match s.inFlight with
    | some e => if e.slot = x then e.image else none
    | none => none

/-- The ISSUE entry for a slot, waiting or in flight (R183). -/
def State.issueEntry (s : State) (x : Slot) : Option (Identity × Image) :=
  (s.engine.waiting ++ s.inFlight.toList).findSome? fun e =>
    match e.work with
    | .issue identity image => if e.slot = x then some (identity, image) else none
    | _ => none

/-- The entries of the queue, waiting and in flight: O of R136. -/
def State.queueCount (s : State) : Nat :=
  s.engine.waiting.length + (if s.engine.flight.isSome then 1 else 0)

/-- The live claims whose record has no waiting VALUE entry: U of R136. -/
def State.unqueuedClaims (s : State) : Nat :=
  (s.dir.entries.filter fun e => e.claimedBy.isSome && !s.hasWaitingValue e.slot).length

/-- The admission test, N + 1 + U + 1 ≤ 96 (R136). While the soft-reset drain runs nothing is admitted
(R178). -/
def State.hasRoom (s : State) : Bool :=
  decide (s.port.mode ≠ .draining) &&
  decide (s.engine.waiting.length + 1 + s.unqueuedClaims + 1 ≤ Config.queuePlaces)

/-! ### Joining the queue -/

/-- A queue entry has appeared for a record: the claims and the host action that wait for a read of it are
marked (R33, R159). -/
def State.markAppeared (x : Slot) (s : State) : State :=
  (s.onDir fun d =>
    { d with claims := d.claims.map fun c => if c.slot = x then { c with appeared := true } else c }).onPort
    fun p =>
      match p.result with
      | .working a => if a.slot = x then { p with result := .working { a with appeared := true } } else p
      | _ => p

/-- An entry joins the tail of the waiting entries (R134). -/
def State.joinQueue (e : QueueEntry) (s : State) : State :=
  (s.onEngine fun g => { g with waiting := g.waiting ++ [e] }).markAppeared e.slot

/-- Coalescing: the image replaces that of the record's waiting VALUE entry in place, which keeps its
attempts and takes the offer's origin (R135). -/
def State.coalesce (x : Slot) (image : Image) (origin : Origin) (s : State) : State :=
  s.onEngine fun g =>
    { g with waiting := g.waiting.map fun e =>
        if e.isValue = true ∧ e.slot = x then { e with work := .value image, origin := origin } else e }

/-- A VALUE image that needs no admission is offered: it coalesces or joins the queue (R134, R135). -/
def State.offerSettlement (x : Slot) (image : Image) (s : State) : State :=
  if s.hasWaitingValue x then s.coalesce x image .position
  else s.joinQueue { work := .value image, slot := x, attempts := 0, origin := .position }

/-- A VALUE image that needs admission unless it coalesces is offered; none when it is not admitted
(R134, R136). -/
def State.offerValue (x : Slot) (image : Image) (origin : Origin) (s : State) : Option State :=
  if s.hasWaitingValue x then some (s.coalesce x image origin)
  else if s.hasRoom then
    some (s.joinQueue { work := .value image, slot := x, attempts := 0, origin := origin })
  else none

/-- The image of the record's live copy as the array holds it, if it reads valid. -/
def State.storedImage (s : State) (x : Slot) : Option Image :=
  match s.bySlot x with
  | none => none
  | some e =>
    match e.live with
    | none => none
    | some (c, _) => (readValue ((s.record x).copy c)).valid.map Prod.fst

/-- A refresh is offered for a record of which a value copy has read corrected (R145): it carries the
newest image, coalesces into a waiting VALUE entry, and is dropped when the record's only entry is in
flight, when the record is ISSUING or removed, or when it is not admitted. While the soft-reset drain runs it is
dropped outright, also where it would coalesce (R178; DESIGN CHOICE, log 34). -/
def State.offerRefresh (x : Slot) (s : State) : State :=
  match s.bySlot x with
  | none => s
  | some e =>
    if e.condition = .issuing ∨ s.port.mode = .draining then s
    else if s.hasWaitingValue x then
      match s.queuedImage x with
      | some image => s.coalesce x image .refresh
      | none => s
    else if s.hasEntry x then s
    else
      match s.storedImage x with
      | some image => (s.offerValue x image .refresh).getD s
      | none => s

/-! ### Changes of a record's condition -/

/-- A read has found the record unreadable: a GOOD record becomes DAMAGED, and STORE FAULT is raised with
the slot and the mark that a read found it (R21, R146). -/
def State.foundUnreadable (x : Slot) (s : State) : State :=
  (s.onEntry x fun e => { e with condition := if e.condition = .good then .damaged else e.condition }).raiseStoreFault
    x none

/-- The live copy noted for a record becomes another copy and its generation (R9, R32). -/
def State.noteLive (x : Slot) (c : Copy) (g : Gen) (s : State) : State :=
  s.onEntry x fun e => { e with live := some (c, g) }

end Sys2Proof.Machine
end

