-- ==== Sys2Proof/Machine/Metering.lean ====
section
/-!
DEFINITION. What a position does with its claim and its call: settlements and release, charges and debits,
the answer, grace, cut, and the end of a claim (04, 05).
-/

namespace Sys2Proof.Machine

/-! ### Settlements and release (R36, R71, R87) -/

/-- The image of a settlement of a claim with working balance `w` (R71): BLOCKED for the host's BLOCK, else
EMPTY at balance 0, else the claim image's state. -/
def Claim.settlement (k : Claim) (w : Nat) (blocked : Bool) : Image :=
  { k.image with
    balance := w
    state := if blocked then .blocked else if w = 0 then .empty else k.image.state }

/-- A release: the record's claimed-by becomes none (R36). -/
def State.release (x : Slot) (s : State) : State := s.onEntry x fun e => { e with claimedBy := none }

/-- The position's claim items become absent or 0 (R69). -/
def Position.dropClaim (c : Position) : Position :=
  { c with claim := none, claimBalance := 0, working := 0, debited := 0 }

/-- The refused items are cleared (R70). -/
def Position.clearRefused (c : Position) : Position :=
  { c with refusedSerial := none, refusedVerdict := .none, refusedBalance := 0 }

/-- The outstanding claim, if there is one, is marked abandoned (R67). -/
def Position.abandon (c : Position) : Position :=
  { c with outstanding := c.outstanding.map fun o => { o with abandoned := true } }

/-- The claim of a position ends: its settlement is queued, then the record is released, then its claim
items are dropped (R69, R71, R36). Nothing happens where no claim is held. -/
def State.endClaim (p : Pos) (blocked : Bool) (s : State) : State :=
  match (s.ctx p).claim with
  | none => s
  | some k =>
    (((s.offerSettlement k.slot (k.settlement (s.ctx p).working blocked)).release k.slot).onCtx p
      Position.dropClaim)

/-- A checkpoint settlement: the working image is queued, and D becomes 0 (R87, R175). Nothing happens
where no claim is held. -/
def State.checkpoint (p : Pos) (s : State) : State :=
  match (s.ctx p).claim with
  | none => s
  | some k =>
    (s.offerSettlement k.slot (k.settlement (s.ctx p).working false)).onCtx p fun c =>
      { c with debited := 0 }

/-- The checkpoint step in force: 1 while PWRLOW is asserted, else K (R87, R176). -/
def State.stepInForce (s : State) : Nat := if s.pins.pwrlow then 1 else s.settings.checkpoint

/-! ### Charges (R84, R85, R88) -/

/-- A rate charge at rate r quarters and phase p (R84). -/
def rateCharge (r : Nat) (p : Fin 4) : Nat := r / 4 + (if p.val < r % 4 then 1 else 0)

/-- The phase at which a rate charge at rate r is made: 0 when the rate differs from the rate used (R85). -/
def Call.phaseAt (k : Call) (r : Nat) : Fin 4 := if r = k.rateUsed then k.phase else 0

/-- The next rate charge of a call at rate r (R84, R85). -/
def Call.charge (k : Call) (r : Nat) : Nat := rateCharge r (k.phaseAt r)

/-- The call with a rate charge at rate r and an interval fixed (R85). -/
def Call.fix (k : Call) (r interval : Nat) : Call :=
  { k with rateUsed := r, interval := interval, phase := k.phaseAt r + 1 }

/-- The warn flag of a card in METERED: W below the next two rate charges, never for SERVICE (R88). -/
def warnFor (cls : CardClass) (w : Nat) (k : Call) : Bool :=
  decide (cls ≠ .service) &&
  decide (w < rateCharge k.rateUsed k.phase + rateCharge k.rateUsed (k.phase + 1))

/-- Whether a card can pay an amount (R90). -/
def canPay (cls : CardClass) (w amount : Nat) : Bool := decide (cls = .service) || decide (amount ≤ w)

/-- W falls by the units debited, but for SERVICE, and D rises by them (R86). -/
def Position.spend (cls : CardClass) (units : Nat) (c : Position) : Position :=
  { c with
    working := if cls = .service then c.working else c.working - units
    debited := c.debited + units }

/-- A debit of `units` from the card a position holds, on a call in `zone` (R86): W falls but for SERVICE,
the takings rise, D rises, and the checkpoint test of R87 is made. A debit of 0 changes nothing here: no test is
made (R86, log 16). -/
def State.debit (p : Pos) (zone : BitVec 4) (units : Nat) (s : State) : State :=
  match (s.ctx p).claim with
  | none => s
  | some k =>
    if units = 0 then s
    else
      let t := (s.addTakings k.cls zone units).onCtx p (Position.spend k.cls units)
      if t.stepInForce ≤ (t.ctx p).debited then t.checkpoint p else t

/-- The class of the card a position holds. -/
def Position.cls (c : Position) : Option CardClass := c.claim.map Claim.cls

/-- Whether the card a position holds can pay an amount. -/
def Position.pays (c : Position) (amount : Nat) : Bool :=
  match c.cls with
  | some cls => canPay cls c.working amount
  | none => false

/-- The warn flag is set or cleared by R88 after a debit that leaves the position in METERED. -/
def Position.updateWarn (c : Position) : Position :=
  match c.cls, c.call with
  | some cls, some k => { c with order := { c.order with warn := warnFor cls c.working k } }
  | _, _ => c

/-! ### Cut and grace (R98, R107) -/

/-- Entry to CUT: the call context is dropped, and the order becomes the cut verdict (R107). A claim that
was answered WAIT in GRACE is not kept: its candidate serial is dropped (R105). -/
def Position.enterCut (verdict : Verdict) (c : Position) : Position :=
  let dropped : Bool := match c.state, c.call with
    | .grace, some k => decide (k.sub = .checking) && c.outstanding.isNone
    | _, _ => false
  { c with
    state := .cut
    call := none
    candidate := if dropped then none else c.candidate
    order := { verdict := verdict, warn := false, shown := 0 } }

/-- Entry to GRACE with an amount the card cannot pay, on a call `k` (R98): above 255 it is cut CUT-OTHER,
with a grace window of 0 it is cut CUT-EXHAUSTED. The window is in seconds, the timer in tenths. -/
def Position.enterGrace (window amount : Nat) (k : Call) (c : Position) : Position :=
  if Config.maxAmount < amount then c.enterCut .cutOther
  else if window = 0 then c.enterCut .cutExhausted
  else
    { c with
      state := .grace
      call := some { k with
        amount := amount, intervalTimer := none, graceTimer := some (10 * window), sub := .old } }

/-! ### The answer event (R89, R90) -/

/-- The call context of an answer, before its first charge (R89). -/
def newCall (zone pulse : BitVec 4) (rate interval : Nat) : Call :=
  { zone := zone, rateUsed := rate, interval := interval, phase := 0, intervalTimer := none, amount := 0,
    graceTimer := none, lastPulse := if zone = 15 then some pulse else none, sub := .old }

/-- The position enters METERED on call `k`, paying `amount` (R90, R92, R103): a timed call's interval timer
starts with the call's interval, and the warn flag follows R88. -/
def State.meter (p : Pos) (k : Call) (amount : Nat) (s : State) : State :=
  let timer := if k.zone = 15 then none else some k.interval
  ((s.onCtx p fun c =>
      { c with
        state := .metered
        call := some { k with intervalTimer := timer, graceTimer := none, amount := 0, sub := .old }
      }).debit p k.zone amount).onCtx p Position.updateWarn

/-- The answer event in HELD (R89, R90): the entry in force is read; not usable, the call is cut CUT-BARRED;
else the due charge is paid into METERED or held into GRACE. -/
def State.answerEvent (p : Pos) (zone pulse : BitVec 4) (s : State) : State :=
  let t := s.afterTariffRead zone
  match s.entryInForce zone, (s.ctx p).cls with
  | some e, some cls =>
    let rate := e.rateFor cls
    let interval := e.interval.toNat
    let k := newCall zone pulse rate interval
    let due := e.initialCharge.toNat + (if zone = 15 then 0 else k.charge rate)
    let fixed := if zone = 15 then k else k.fix rate interval
    if (t.ctx p).pays due then t.meter p fixed due
    else t.onCtx p (Position.enterGrace t.settings.graceWindow due fixed)
  | _, _ => t.onCtx p (Position.enterCut .cutBarred)

/-! ### Timed calls (R92) and pulsed calls (R93, R94, R104) -/

/-- An interval expiry in METERED (R92). Where the position is not in METERED with its timer running the
expiry does not occur (R91, log 6). -/
def State.intervalExpiry (p : Pos) (s : State) : State :=
  let c := s.ctx p
  match c.state, c.call, c.cls with
  | .metered, some k, some cls =>
    if k.intervalTimer.isNone then s
    else
      let t := s.afterTariffRead k.zone
      match s.entryInForce k.zone with
      | none => t.onCtx p (Position.enterCut .cutBarred)
      | some e =>
        let rate := e.rateFor cls
        let charge := k.charge rate
        let fixed := k.fix rate e.interval.toNat
        if c.pays charge then t.meter p fixed charge
        else t.onCtx p (Position.enterGrace t.settings.graceWindow charge fixed)
  | _, _, _ => s

/-- The charges of `n` pulses in turn at rate r, all fixed and summed, with the call after them (R94,
R104). -/
def Call.owe (r interval : Nat) : Nat → Call → Nat × Call
  | 0, k => (0, k)
  | n + 1, k =>
    let rest := Call.owe r interval n (k.fix r interval)
    (k.charge r + rest.1, rest.2)

/-- `n` pulses of a report in METERED, charged in turn (R94): each is debited while the card can pay it; at
the first that it cannot, that charge and all later ones are owed, and the position enters GRACE. -/
def State.chargePulses (p : Pos) (rate interval : Nat) : Nat → State → State
  | 0, s => s
  | n + 1, s =>
    let c := s.ctx p
    match c.call with
    | none => s
    | some k =>
      if c.pays (k.charge rate) then
        State.chargePulses p rate interval n (s.meter p (k.fix rate interval) (k.charge rate))
      else
        let owed := Call.owe rate interval (n + 1) k
        s.onCtx p (Position.enterGrace s.settings.graceWindow owed.1 owed.2)

/-- The new pulses of a report on a zone 15 call (R93). -/
def Call.newPulses (k : Call) (pulse : BitVec 4) : Nat :=
  if k.zone = 15 then (pulse - k.lastPulse.getD pulse).toNat else 0

/-- The last pulse count becomes the reported count on a zone 15 call (R93). -/
def Call.countPulse (k : Call) (pulse : BitVec 4) : Call :=
  if k.zone = 15 then { k with lastPulse := some pulse } else k

/-- The pulses of a report taken in METERED (R93, R94). -/
def State.meteredPulses (p : Pos) (pulse : BitVec 4) (s : State) : State :=
  match (s.ctx p).call, (s.ctx p).cls with
  | some k, some cls =>
    let t := s.onCtx p fun c => { c with call := some (k.countPulse pulse) }
    let n := k.newPulses pulse
    if n = 0 then t
    else
      let u := t.afterTariffRead k.zone
      match s.entryInForce k.zone with
      | none => u.onCtx p (Position.enterCut .cutBarred)
      | some e => u.chargePulses p (e.rateFor cls) e.interval.toNat n
  | _, _ => s

/-- The rate of a pulse in GRACE: that of the card then held, or the rate used when none is (R104). -/
def Call.rateInGrace (k : Call) (e : TariffEntry) : Option CardClass → Nat
  | some cls => e.rateFor cls
  | none => k.rateUsed

/-- The pulses of a report taken in GRACE (R93, R104): charged as owed, at the rate of the card held or at
the rate used; above 255 the call is cut CUT-OTHER. -/
def State.gracePulses (p : Pos) (pulse : BitVec 4) (s : State) : State :=
  match (s.ctx p).call with
  | some k =>
    let t := s.onCtx p fun c => { c with call := some (k.countPulse pulse) }
    let n := k.newPulses pulse
    if n = 0 then t
    else
      let u := t.afterTariffRead k.zone
      match s.entryInForce k.zone with
      | none => u.onCtx p (Position.enterCut .cutBarred)
      | some e =>
        let owed := Call.owe (k.rateInGrace e (s.ctx p).cls) e.interval.toNat n (k.countPulse pulse)
        if Config.maxAmount < k.amount + owed.1 then u.onCtx p (Position.enterCut .cutOther)
        else u.onCtx p fun c => { c with call := some { owed.2 with amount := k.amount + owed.1 } }
  | none => s

/-- The grace timer expires (R105): CUT-EXHAUSTED, with the amount uncharged. Where the position is not in
GRACE with its timer running the expiry does not occur (log 6). -/
def State.graceExpiry (p : Pos) (s : State) : State :=
  match (s.ctx p).state, (s.ctx p).call with
  | .grace, some k =>
    if k.graceTimer.isNone then s else s.onCtx p (Position.enterCut .cutExhausted)
  | _, _ => s

/-! ### The answer to a claim (R64 to R67, R102, R103, R108) -/

/-- A refusal of a claim (R33), EMPTY with the balance that the newest image carries. -/
inductive RefusalReason where
  | unknown
  | empty (balance : Nat)
  | blocked
  | expired
  | inUse
  | fault
  deriving DecidableEq, Repr

/-- The answer to a claim (R33): ACCEPTED with slot, class and image, a refusal, or WAIT. -/
inductive ClaimAnswer where
  | accepted (slot : Slot) (cls : CardClass) (image : Image)
  | refused (reason : RefusalReason)
  | wait
  deriving DecidableEq, Repr

/-- The refused verdict of a reason (R65). -/
def RefusalReason.verdict : RefusalReason → Verdict
  | .unknown => .refusedUnknown
  | .empty _ => .refusedEmpty
  | .blocked => .refusedBlocked
  | .expired => .refusedExpired
  | .inUse => .refusedInUse
  | .fault => .refusedFault

/-- The refused balance of a reason (R65). -/
def RefusalReason.balance : RefusalReason → Nat
  | .empty b => b
  | _ => 0

/-- The position takes the card that was accepted (R64). -/
def Position.takeCard (x : Slot) (serial : Serial) (cls : CardClass) (image : Image) (c : Position) :
    Position :=
  { c with
    claim := some { slot := x, serial := serial, cls := cls, image := image }
    claimBalance := image.balance, working := image.balance, debited := 0, candidate := none
    refusedSerial := none, refusedVerdict := .none, refusedBalance := 0 }

/-- The refused items are set from a refusal, and the candidate serial becomes absent (R65). -/
def Position.takeRefusal (serial : Serial) (reason : RefusalReason) (c : Position) : Position :=
  { c with
    candidate := none, refusedSerial := some serial, refusedVerdict := reason.verdict
    refusedBalance := reason.balance }

/-- The GRACE card sub-state is set. -/
def Position.setSub (sub : SubState) (c : Position) : Position :=
  { c with call := c.call.map fun k => { k with sub := sub } }

/-- A card just taken in GRACE pays the whole amount and the call is metered again, or it is handed back as
REFUSED-LOW: settled with its balance unchanged, and released (R103). -/
def State.gracePayment (p : Pos) (s : State) : State :=
  let c := s.ctx p
  match c.call, c.claim with
  | some k, some held =>
    if c.pays k.amount then s.meter p k k.amount
    else
      (s.endClaim p false).onCtx p fun d =>
        { d with
          refusedSerial := some held.serial, refusedVerdict := .refusedLow, refusedBalance := c.working
        }.setSub .refused
  | _, _ => s

/-- A position acts on the answer to its claim (R63 to R67, R102, R108). The outstanding claim becomes
absent. An abandoned claim that was granted is settled with the balance received and released (R67). -/
def State.takeAnswer (p : Pos) (a : ClaimAnswer) (s : State) : State :=
  match (s.ctx p).outstanding with
  | none => s
  | some o =>
    let t := s.onCtx p fun c => { c with outstanding := none }
    if o.abandoned then
      match a with
      | .accepted x cls image =>
        let k : Claim := { slot := x, serial := o.serial, cls := cls, image := image }
        (t.offerSettlement x (k.settlement image.balance false)).release x
      | _ => t
    else
      match (s.ctx p).state, a with
      | .checking, .accepted x cls image =>
        t.onCtx p fun c => { c.takeCard x o.serial cls image with state := .held }
      | .checking, .refused r => t.onCtx p fun c => { c.takeRefusal o.serial r with state := .refused }
      | .checking, .wait => t.onCtx p fun c => { c with state := .waiting }
      | .grace, .accepted x cls image =>
        (t.onCtx p (Position.takeCard x o.serial cls image)).gracePayment p
      | .grace, .refused r => t.onCtx p fun c => (c.takeRefusal o.serial r).setSub .refused
      | .grace, .wait => t
      | .cut, .accepted x cls image => t.onCtx p (Position.takeCard x o.serial cls image)
      | .cut, .refused r => t.onCtx p (Position.takeRefusal o.serial r)
      | .cut, .wait => t.onCtx p fun c => { c with candidate := none }
      | _, _ => t

/-! ### Entry to LOST and OFF (R75, R77), and the BLOCK of a claimed card (R110) -/

/-- Steps 1 to 3 of the entry to LOST, which the entry to OFF shares: a held claim is settled and released,
an outstanding claim abandoned, the call and the serial items dropped (R75, R77). -/
def State.giveUp (p : Pos) (target : PosState) (s : State) : State :=
  (s.endClaim p false).onCtx p fun c =>
    { c.abandon.clearRefused with state := target, call := none, candidate := none, highHalf := none }

/-- Entry to LOST, from any state but OFF and LOST (R75): POSITION LOST is raised if it released a claim. -/
def State.enterLost (p : Pos) (s : State) : State :=
  let c := s.ctx p
  if c.state = .off ∨ c.state = .lost then s
  else if c.claim.isSome then (s.giveUp p .lost).raisePositionLost p
  else s.giveUp p .lost

/-- Entry to OFF, from any other state (R77). -/
def State.enterOff (p : Pos) (s : State) : State :=
  if (s.ctx p).state = .off then s else s.giveUp p .off

/-- A position leaves OFF for VACANT, with its silent count 0 and its high half absent (R77, R78). -/
def State.leaveOff (p : Pos) (s : State) : State :=
  s.onCtx p fun c => { c with state := .vacant, silentCount := 0, highHalf := none }

/-- The host's BLOCK of a claimed card acts through its position (R110): the claim is settled BLOCKED and
released, the refused items name the card, and the position goes to REFUSED or to CUT. -/
def State.blockThrough (p : Pos) (s : State) : State :=
  match (s.ctx p).claim with
  | none => s
  | some k =>
    (s.endClaim p true).onCtx p fun c =>
      let d := c.takeRefusal k.serial .blocked
      match c.state with
      | .held => { d with state := .refused }
      | .metered | .grace | .cut => d.enterCut .cutBlocked
      | _ => d

/-! ### Commands -/

/-- INTERVAL EXPIRY (R92). -/
def execIntervalExpiry (p : Pos) (s : State) : Host.Outcome State Fault Refusal :=
  done (unlessReset (State.intervalExpiry p) s)

/-- GRACE TIMER EXPIRY (R105). -/
def execGraceTimerExpiry (p : Pos) (s : State) : Host.Outcome State Fault Refusal :=
  done (unlessReset (State.graceExpiry p) s)

end Sys2Proof.Machine
end

