-- ==== Sys2Proof/Machine/Claims.lean ====
section
/-!
DEFINITION. Claims at the directory: arrival, the read of the live copy, completion, held claims, and how a
position sends one (02 section 2.6, R62, R63).
-/

namespace Sys2Proof.Machine

/-- A newest image as a grant hands it over (R7, R13, R33): FRESH becomes ACTIVE, the use count rises by 1
and stops at 65,535, last position and last use day are set. -/
def Image.granted (i : Image) (p : Pos) (today : BitVec 16) : Image :=
  { i with
    state := if i.state = .fresh then .active else i.state
    useCount := if i.useCount = 0xFFFF#16 then i.useCount else i.useCount + 1
    lastPosition := some p, lastUseDay := today }

/-- Whether an image is expired on a day (R16). -/
def Image.expired (i : Image) (today : BitVec 16) : Bool :=
  decide (i.expiry ≠ 0) && decide (i.expiry < today)

/-- The tests of a claim at completion, with the newest image as it was resolved (R33). No image is
resolved only where both copies were found unreadable: the claim is answered FAULT. -/
def State.completeClaim (serial : Serial) (p : Pos) (image : Option Image) (s : State) :
    State × ClaimAnswer :=
  match s.lookup serial with
  | none => (s, .refused .unknown)
  | some e =>
    if e.condition = .issuing then (s, .wait)
    else if e.condition = .damaged ∨ e.condition = .worn then (s, .refused .fault)
    else if e.claimedBy.isSome then (s, .refused .inUse)
    else if s.pins.pwrlow then (s, .wait)
    else
      match image with
      | none => (s, .refused .fault)
      | some i =>
        if i.state = .blocked then (s.raiseHotCard serial p, .refused .blocked)
        else if i.expired s.today then (s, .refused .expired)
        else if (i.state = .empty ∨ i.balance = 0) ∧ e.cls ≠ .service then (s, .refused (.empty i.balance))
        else if s.hasRoom = false then (s.raiseAdmission, .wait)
        else
          (s.onEntry e.slot fun e => { e with claimedBy := some p },
            .accepted e.slot e.cls (i.granted p s.today))

/-- Whether an answer is ACCEPTED. -/
def ClaimAnswer.isAccepted : ClaimAnswer → Bool
  | .accepted _ _ _ => true
  | _ => false

/-- A claim is answered: its position acts on the answer. The result also says whether it was accepted. -/
def State.deliver (p : Pos) (r : State × ClaimAnswer) : State × Option Bool :=
  (r.1.takeAnswer p r.2, some r.2.isAccepted)

/-- A claim joins the claims in flight and asks for a read of a copy (R30 step 7, R32). -/
def State.startClaim (serial : Serial) (x : Slot) (p : Pos) (c : Copy) (s : State) : State :=
  (s.onDir fun d =>
    { d with claims := d.claims ++
        [{ serial := serial, slot := x, position := p, second := false, appeared := false, held := [] }]
    }).requestRead { who := .claim p, slot := x, granule := c.granule }

/-- Positions join the tail of the claims held behind the claim of a serial (R34). -/
def State.holdBehind (serial : Serial) (ps : List Pos) (s : State) : State :=
  s.onDir fun d =>
    { d with claims := d.claims.map fun c =>
        if c.serial = serial then { c with held := c.held ++ ps } else c }

/-- The arrival of a claim at the directory (R30). The second result is whether it was accepted, none when
it is not answered yet: held or in flight. -/
def State.claimArrives (serial : Serial) (p : Pos) (s : State) : State × Option Bool :=
  if s.dir.ready = false ∨ s.pins.pwrlow = true then State.deliver p (s, .wait)
  else
    match s.lookup serial with
    | none => State.deliver p (s, .refused .unknown)
    | some e =>
      if e.condition = .issuing then State.deliver p (s, .wait)
      else if e.condition = .damaged ∨ e.condition = .worn then State.deliver p (s, .refused .fault)
      else if e.claimedBy.isSome then State.deliver p (s, .refused .inUse)
      else if s.claimPending serial then (s.holdBehind serial [p], none)
      else
        match s.queuedImage e.slot, e.live with
        | some i, _ => State.deliver p (s.completeClaim serial p (some i))
        | none, some (c, _) => (s.startClaim serial e.slot p c, none)
        | none, none => State.deliver p (s.completeClaim serial p none)

/-- Every claim of `ps` is answered IN USE (R34). -/
def State.answerInUse (ps : List Pos) (s : State) : State :=
  forPositions ps (fun q t => t.takeAnswer q (.refused .inUse)) s

/-- The claims that were held behind a claim now refused or answered WAIT (R34): the first is taken afresh,
as if it had just arrived, and the others stay held behind it while it is in flight. -/
def State.retryHeld (serial : Serial) : List Pos → State → State
  | [], s => s
  | p :: rest, s =>
    match s.claimArrives serial p with
    | (t, some true) => t.answerInUse rest
    | (t, some false) => State.retryHeld serial rest t
    | (t, none) => t.holdBehind serial rest

/-- A claim in flight completes with its newest image (R33), its position acts on the answer, and the claims
held behind it follow (R34). -/
def State.finishClaim (c : FlightClaim) (image : Option Image) (s : State) : State :=
  let t := s.onDir fun d => { d with claims := d.claims.filter fun k => k.position != c.position }
  let r := t.completeClaim c.serial c.position image
  let u := r.1.takeAnswer c.position r.2
  if r.2.isAccepted then u.answerInUse c.held else u.retryHeld c.serial c.held

/-- The state with the claim in flight of a position changed by `f`. -/
def State.onClaim (p : Pos) (f : FlightClaim → FlightClaim) (s : State) : State :=
  s.onDir fun d => { d with claims := d.claims.map fun c => if c.position = p then f c else c }

/-- The claim in flight of a position. -/
def State.claimOf (s : State) (p : Pos) : Option FlightClaim :=
  s.dir.claims.find? fun c => c.position == p

/-- A claim's reads are over: the newest image is resolved afresh, the image read being used only when no
queue entry for the record has appeared since; when one has and is gone, the live copy now noted is read
again (R33, log 13). -/
def State.resolveClaim (p : Pos) (image : Option Image) (s : State) : State :=
  match s.claimOf p with
  | none => s
  | some c =>
    match s.queuedImage c.slot with
    | some i => s.finishClaim c (some i)
    | none =>
      match c.appeared, (s.bySlot c.slot).bind DirEntry.live with
      | true, some (copy, _) =>
        (s.onClaim p fun c => { c with second := false, appeared := false }).requestRead
          { who := .claim p, slot := c.slot, granule := copy.granule }
      | _, _ => s.finishClaim c image

/-- A claim's read of a value copy completes (R32). The order inside it is log 14: the note moves, a
refresh is offered, the claim completes. -/
def State.claimRead (p : Pos) (copy : Copy) (o : ReadOutcome (Image × Gen)) (s : State) : State :=
  match s.claimOf p with
  | none => s
  | some c =>
    match o.valid with
    | some (i, g) =>
      let t := if c.second then s.noteLive c.slot copy g else s
      (if o.isCorrected then t.offerRefresh c.slot else t).resolveClaim p (some i)
    | none =>
      if c.second then (s.foundUnreadable c.slot).resolveClaim p none
      else
        (s.onClaim p fun c => { c with second := true }).requestRead
          { who := .claim p, slot := c.slot, granule := copy.other.granule }

/-- A position sends a claim for a serial (R62, R63): in GRACE its card sub-state follows, else its state.
With a claim still outstanding the serial is not claimed, and assembly begins again. -/
def State.sendClaim (p : Pos) (serial : Serial) (s : State) : State :=
  let go (sub : SubState) (st : PosState) (c : Position) : Position :=
    if c.state = .grace then c.setSub sub else { c with state := st }
  if (s.ctx p).outstanding.isSome then
    s.onCtx p fun c => go .reading .reading { c with candidate := none, highHalf := none }
  else
    ((s.onCtx p fun c =>
      go .checking .checking
        { c with candidate := some serial, outstanding := some { serial := serial, abandoned := false } }
      ).claimArrives serial p).1

end Sys2Proof.Machine
end

