-- ==== Sys2Proof/Machine/Reports.lean ====
section
/-!
DEFINITION. What a position does with a valid report or a silent cycle, in every state (04, 05).
-/

namespace Sys2Proof.Machine

/-- The fields of a station report that are handed to a position (R51). -/
structure Report where
  hook : Hook
  present : Bool
  high : Bool
  serialHalf : BitVec 16
  zone : BitVec 4
  pulse : BitVec 4
  deriving DecidableEq, Repr

/-! ### Serial assembly (R59) -/

/-- The serial a report completes: a LOW half with a high half held. -/
def completedSerial (c : Position) (r : Report) : Option Serial :=
  if r.present ∧ r.high = false then c.highHalf.map fun h => h ++ r.serialHalf else none

/-- The high half after a report. -/
def highHalfAfter (r : Report) : Option (BitVec 16) :=
  if r.present ∧ r.high then some r.serialHalf else none

/-- Serial assembly run on a report: the high half after it. -/
def State.assemble (p : Pos) (r : Report) (s : State) : State :=
  s.onCtx p fun c => { c with highHalf := highHalfAfter r }

/-- Whether a serial was completed that is not `known`. -/
def differs (done known : Option Serial) : Bool := done.isSome && done != known

/-! ### Without a card, and unpaid calls (R60, R73, R74) -/

/-- The unpaid-call test (R73): the call is free when the entry in force is usable and both its initial
charge and its standard rate are 0; else the position enters CUT with CUT-UNPAID. -/
def State.unpaidTest (p : Pos) (zone : BitVec 4) (s : State) : State :=
  let t := s.afterTariffRead zone
  match s.entryInForce zone with
  | some e =>
    if e.initialCharge = 0 ∧ e.standardRate = 0 then t else t.onCtx p (Position.enterCut .cutUnpaid)
  | none => t.onCtx p (Position.enterCut .cutUnpaid)

/-- A report taken in VACANT (R60). -/
def State.vacantReport (p : Pos) (r : Report) (s : State) : State :=
  if r.present then s.onCtx p fun c => { c with state := .reading }
  else if r.zone = 0 then s
  else s.unpaidTest p r.zone

/-- The position enters VACANT because its card has left, and the same report is taken from VACANT (R60). -/
def State.cardLeft (p : Pos) (r : Report) (s : State) : State :=
  (s.onCtx p fun c => { c with state := .vacant, candidate := none }).vacantReport p r

/-- A report in a CUT entered by an unpaid call, after serial assembly (R74). -/
def State.unpaidCutReport (p : Pos) (r : Report) (serial : Option Serial) (s : State) : State :=
  let t :=
    if r.present = false ∨ differs serial (s.ctx p).refusedSerial = true then
      s.onCtx p Position.clearRefused
    else s
  if r.zone ≠ 0 then t
  else if r.present = false then t.onCtx p fun c => { c with state := .vacant }
  else if (t.ctx p).refusedSerial.isSome then t.onCtx p fun c => { c with state := .refused }
  else (t.onCtx p fun c => { c with state := .vacant }).vacantReport p r

/-! ### Reading, checking, waiting (R61, R63, R66, R67) -/

/-- A report in READING (R61). -/
def State.readingReport (p : Pos) (r : Report) (serial : Option Serial) (s : State) : State :=
  if r.present = false then s.cardLeft p r
  else match serial with
    | some x => s.sendClaim p x
    | none => s

/-- A report in CHECKING (R63, R67): the claim is abandoned when the card leaves or another is met. -/
def State.checkingReport (p : Pos) (r : Report) (serial : Option Serial) (s : State) : State :=
  if r.present = false then (s.onCtx p Position.abandon).cardLeft p r
  else if differs serial (s.ctx p).candidate then
    s.onCtx p fun c => { c.abandon with state := .reading, candidate := none, highHalf := none }
  else s

/-- A report in WAITING (R66): the claim is sent again, for a new serial if one was completed. -/
def State.waitingReport (p : Pos) (r : Report) (serial : Option Serial) (s : State) : State :=
  if r.present = false then s.cardLeft p r
  else
    match serial, (s.ctx p).candidate with
    | some x, _ => s.sendClaim p x
    | none, some x => s.sendClaim p x
    | none, none => s

/-! ### HELD and REFUSED (R69, R70) -/

/-- A report in HELD (R69): the card tests come before the zone. -/
def State.heldReport (p : Pos) (r : Report) (serial : Option Serial) (s : State) : State :=
  if r.present = false then (s.endClaim p false).cardLeft p r
  else
    match serial with
    | some x =>
      if some x ≠ (s.ctx p).claim.map Claim.serial then (s.endClaim p false).sendClaim p x
      else if r.zone = 0 then s else s.answerEvent p r.zone r.pulse
    | none => if r.zone = 0 then s else s.answerEvent p r.zone r.pulse

/-- A report in REFUSED (R70). -/
def State.refusedReport (p : Pos) (r : Report) (serial : Option Serial) (s : State) : State :=
  if r.present = false then (s.onCtx p Position.clearRefused).cardLeft p r
  else
    match serial with
    | some x =>
      if some x = (s.ctx p).refusedSerial then s
      else (s.onCtx p Position.clearRefused).sendClaim p x
    | none => if r.zone = 0 then s else s.unpaidTest p r.zone

/-! ### CUT from a call on a card (R108, R109) -/

/-- The card fields of a report in CUT (R108). -/
def State.cutCard (p : Pos) (r : Report) (serial : Option Serial) (s : State) : State :=
  let c := s.ctx p
  if r.present = false then
    if c.claim.isSome then s.endClaim p false
    else s.onCtx p fun c => { c.clearRefused.abandon with candidate := none }
  else if c.claim.isSome then
    if differs serial (c.claim.map Claim.serial) then s.endClaim p false else s
  else
    s.onCtx p fun c =>
      let d := if differs serial c.refusedSerial then c.clearRefused else c
      if c.outstanding.isSome ∧ differs serial c.candidate = true then { d.abandon with candidate := none }
      else d

/-- The end of a CUT from a call on a card, at a report showing zone 0 (R109, log 17). -/
def State.cutEnd (p : Pos) (r : Report) (s : State) : State :=
  let c := s.ctx p
  if r.present = false then s.onCtx p fun c => { c with state := .vacant }
  else if c.claim.isSome then s.onCtx p fun c => { c with state := .held }
  else if c.outstanding.isSome then s.onCtx p fun c => { c with state := .checking }
  else if c.refusedSerial.isSome then s.onCtx p fun c => { c with state := .refused }
  else (s.onCtx p fun c => { c with state := .vacant }).vacantReport p r

/-- A report in CUT, after serial assembly: by what the cut was entered from (R74, R108, R109). -/
def State.cutReport (p : Pos) (r : Report) (serial : Option Serial) (s : State) : State :=
  if (s.ctx p).order.verdict = .cutUnpaid then s.unpaidCutReport p r serial
  else
    let t := s.cutCard p r serial
    if r.zone = 0 then t.cutEnd p r else t

/-! ### METERED (R95 to R97) -/

/-- A hang-up in METERED (R96). -/
def State.hangUp (p : Pos) (s : State) : State :=
  s.onCtx p fun c => { c with state := .held, call := none }

/-- The rest of a report in METERED, after its pulses and serial assembly (R95). -/
def State.meteredRest (p : Pos) (r : Report) (serial : Option Serial) (s : State) : State :=
  if r.zone = 0 then (s.hangUp p).heldReport p r serial
  else if r.present = false ∨ differs serial ((s.ctx p).claim.map Claim.serial) = true then
    (s.endClaim p false).onCtx p (Position.enterCut .cutOther)
  else s

/-! ### GRACE (R100 to R102, R106) -/

/-- The card fields of a report in GRACE, by the card sub-state (R100 to R102). -/
def State.graceCard (p : Pos) (r : Report) (serial : Option Serial) (s : State) : State :=
  let c := s.ctx p
  match c.call.map Call.sub with
  | some .old =>
    if r.present = false then (s.endClaim p false).onCtx p (Position.setSub .absent)
    else
      match serial with
      | some x =>
        if some x ≠ c.claim.map Claim.serial then (s.endClaim p false).sendClaim p x else s
      | none => s
  | some .absent => if r.present then s.onCtx p (Position.setSub .reading) else s
  | some .reading =>
    if r.present = false then s.onCtx p (Position.setSub .absent)
    else match serial with
      | some x => s.sendClaim p x
      | none => s
  | some .refused =>
    if r.present = false then s.onCtx p fun c => c.clearRefused.setSub .absent
    else
      match serial with
      | some x =>
        if some x = c.refusedSerial then s else (s.onCtx p Position.clearRefused).sendClaim p x
      | none => s
  | some .checking =>
    if r.present = false then
      s.onCtx p fun c => { c.abandon with candidate := none }.setSub .absent
    else if differs serial c.candidate then
      s.onCtx p fun c => { c.abandon with candidate := none, highHalf := none }.setSub .reading
    else
      match c.outstanding, c.candidate with
      | none, some x => s.sendClaim p x
      | _, _ => s
  | none => s

/-- A report showing zone 0 ends the call in GRACE (R106): the amount is forgiven, and the position enters
the state its card sub-state implies. -/
def State.graceEnd (p : Pos) (s : State) : State :=
  s.onCtx p fun c =>
    let next := match c.call.map Call.sub with
      | some .old => PosState.held
      | some .absent => .vacant
      | some .reading => .reading
      | some .checking => if c.outstanding.isSome then .checking else .waiting
      | some .refused => .refused
      | none => .vacant
    { c with state := next, call := none }

/-- The rest of a report in GRACE, after its pulses and serial assembly (R100 to R102, R106). A card that
is accepted and pays inside the report leaves the rest of it to METERED (log 15). -/
def State.graceRest (p : Pos) (r : Report) (serial : Option Serial) (s : State) : State :=
  let t := s.graceCard p r serial
  if r.zone ≠ 0 then t
  else if (t.ctx p).state = .grace then t.graceEnd p
  else if (t.ctx p).state = .metered then t.hangUp p
  else t

/-! ### A valid report and a silent cycle (R51, R53, R76) -/

/-- The pulses of a report, in the states that count them (R93, R95, R104). -/
def State.pulses (p : Pos) (pulse : BitVec 4) (s : State) : State :=
  match (s.ctx p).state with
  | .metered => s.meteredPulses p pulse
  | .grace => s.gracePulses p pulse
  | _ => s

/-- A position takes a valid report by its state, after pulses and serial assembly. -/
def State.reportByState (p : Pos) (r : Report) (serial : Option Serial) (s : State) : State :=
  match (s.ctx p).state with
  | .off => s
  | .lost => s
  | .vacant => s.vacantReport p r
  | .reading => s.readingReport p r serial
  | .checking => s.checkingReport p r serial
  | .waiting => s.waitingReport p r serial
  | .held => s.heldReport p r serial
  | .refused => s.refusedReport p r serial
  | .metered => s.meteredRest p r serial
  | .grace => s.graceRest p r serial
  | .cut => s.cutReport p r serial

/-- A valid report is handed to a position (R51, R53, R55, R76): its silent count becomes 0; a LOST position
enters VACANT with its high half absent; then pulses, serial assembly and the state's own handling. A
position in OFF does not act on it. The rest of a report whose pulses cut the call is taken in CUT: R95 says so of
METERED, and of GRACE it is the model's choice (R104; DESIGN CHOICE, log 35). -/
def State.validReport (p : Pos) (r : Report) (s : State) : State :=
  if (s.ctx p).state = .off then s
  else
    let t := s.onCtx p fun c =>
      let d := { c with silentCount := 0, lastHook := r.hook }
      if c.state = .lost then { d with state := .vacant, highHalf := none } else d
    let u := t.pulses p r.pulse
    (u.assemble p r).reportByState p r (completedSerial (u.ctx p) r)

/-- A silent cycle is handed to a position (R53, R55): its silent count rises, stopping at 15, and at the
silent limit the position enters LOST. -/
def State.silentCycle (p : Pos) (s : State) : State :=
  if (s.ctx p).state = .off then s
  else
    let t := s.onCtx p fun c => { c with silentCount := min 15 (c.silentCount + 1) }
    if t.settings.silentLimit ≤ (t.ctx p).silentCount then t.enterLost p else t

end Sys2Proof.Machine
end

