-- ==== Sys2Proof/Machine/Lines.lean ====
section
/-!
DEFINITION. The row lines: settings, enabling and disabling, the cycle and its cycle-open frame, the
transmissions and the classification of the slot windows, and the line fault (03).
-/

namespace Sys2Proof.Machine

/-! ### The cycle-open frame (R46, R47, 11.1) -/

/-- The 21 bits of an order: verdict, warn, balance shown (11.1). -/
def Order.bits (o : Order) : BitVec 21 :=
  o.verdict.code ++ BitVec.ofBool o.warn ++ BitVec.ofNat 16 o.shown

/-- The order of a slot of a line, from its position's context (R46). -/
def State.orderBits (s : State) (l : LineIx) (k : Fin 8) : BitVec 21 := (s.ctx (posOf l k)).order.bits

/-- The 175 bits of a cycle-open frame before its check (11.1). -/
def State.frameBody (s : State) (l : LineIx) (count : BitVec 4) : BitVec 175 :=
  BitVec.ofNat 3 l.val ++ count ++ s.orderBits l 0 ++ s.orderBits l 1 ++ s.orderBits l 2 ++
  s.orderBits l 3 ++ s.orderBits l 4 ++ s.orderBits l 5 ++ s.orderBits l 6 ++ s.orderBits l 7

/-- The cycle-open frame of a line, composed now for a cycle count (R46, R47). -/
def State.cycleFrame (s : State) (l : LineIx) (count : BitVec 4) : BitVec 183 :=
  s.frameBody l count ++ crc8 (msbFirst (s.frameBody l count))

/-! ### Driving and stopping a line (R40 to R42) -/

/-- Whether a line is driven: in BLANKING or RUNNING. -/
def Line.driven (l : Line) : Bool := decide (l.state = .blanking) || decide (l.state = .running)

/-- The line no longer driven, in a state: its cycle stops where it stands, a transmission being received is
discarded, and no open window is classified (R41, R42). -/
def Line.stop (state : LineState) (l : Line) : Line :=
  { l with state := state, phase := .stopped, receiver := none, record := .noStart }

/-- A cycle of a line begins, with a count and in a state (R40, R45 steps 3 to 5): the held settings are copied,
the frame being sent is composed from the orders as they stand, and the window record is cleared. -/
def State.openCycle (l : LineIx) (count : BitVec 4) (state : LineState) (s : State) : State :=
  s.onLine l fun c =>
    { c with
      state := state, count := count, cycle := c.held
      phase := .sending (s.cycleFrame l count), receiver := none, record := .noStart }

/-- A position of a line being enabled (R40): OFF with its mark set becomes VACANT; its silent count becomes
0 and its last-report-class NONE. -/
def State.preparePosition (p : Pos) (s : State) : State :=
  let t := if (s.ctx p).state = .off ∧ (s.ctx p).enabled = true then s.leaveOff p else s
  t.onCtx p fun c => { c with silentCount := 0, lastClass := .none }

/-- ENABLE LINE's effect on a line (R40): its positions are prepared, and its first cycle starts at once, in
BLANKING with count 0. A line in BLANKING or RUNNING is left as it is. -/
def State.enableLine (l : LineIx) (s : State) : State :=
  if (s.line l).driven then s
  else (forPositions (positionsOf l) State.preparePosition s).openCycle l 0 .blanking

/-- A position in LOST enters OFF when its FAULTED line is disabled (R41). -/
def State.lostToOff (p : Pos) (s : State) : State :=
  if (s.ctx p).state = .lost then s.enterOff p else s

/-- DISABLE LINE's effect on a line, by the state it finds (R41). -/
def State.disableLine (l : LineIx) (s : State) : State :=
  match (s.line l).state with
  | .off => s
  | .faulted => forPositions (positionsOf l) State.lostToOff (s.onLine l (Line.stop .off))
  | .blanking | .running => forPositions (positionsOf l) State.enterOff (s.onLine l (Line.stop .off))

/-- A line fault event (R42): in OFF and FAULTED it does not arise (log 6). -/
def State.lineFault (l : LineIx) (s : State) : State :=
  if (s.line l).driven then
    (forPositions (positionsOf l) State.enterLost (s.onLine l (Line.stop .faulted))).raiseLineFault l
  else s

/-- The states of the six lines, two bits each, line A lowest (R56). -/
def State.lineStates (s : State) : BitVec 12 :=
  (s.line 5).state.code ++ (s.line 4).state.code ++ (s.line 3).state.code ++ (s.line 2).state.code ++
  (s.line 1).state.code ++ (s.line 0).state.code

/-! ### The cycle (R44, R45) -/

/-- The state of a line in the cycle of a count: RUNNING from the cycle whose count is 3 (R45 step 2). -/
def Line.stateAt (count : BitVec 4) (l : Line) : LineState :=
  if l.state = .blanking ∧ count = 3 then .running else l.state

/-- Whether a cycle start can come: the line is driven, and slot 7's window of the cycle before has closed
(R44). -/
def Line.cycleDue (l : Line) : Bool := l.driven && decide (l.phase = .over)

/-- A cycle start, but for the first after an enable, which ENABLE LINE makes (R40, R45): the count advances. -/
def State.cycleStart (l : LineIx) (s : State) : State :=
  let c := s.line l
  if c.cycleDue then s.openCycle l (c.count + 1) (c.stateAt (c.count + 1)) else s

/-- The end of the cycle-open frame, from which the windows are placed (R45). -/
def Line.frameEnd (l : Line) : Line :=
  match l.phase with
  | .sending _ => { l with phase := .window 0 }
  | _ => l

/-! ### Transmissions (R48) -/

/-- A setting in tenths of a millisecond as microseconds. -/
def tenthsToMicros (n : Nat) : Nat := 100 * n

/-- The microsecond at which window k of a cycle opens, after the end of the frame (R45). -/
def Timing.opens (t : Timing) (k : Nat) : Nat := tenthsToMicros (t.offset + k * t.pitch)

/-- The slot a transmission is assigned to by the time of its start: the first whose window closes after it,
so slot 0 for a start before window 0, and none after slot 7's window (R48). -/
def Timing.slotAt (t : Timing) (time : Nat) : Option (Fin 8) :=
  allSlots.find? fun k => decide (time < t.opens (k.val + 1))

/-- A start noted in the window record (R48). -/
def WindowRecord.note (start : Nat) : WindowRecord → WindowRecord
  | .noStart => .one { start := start, finish := none }
  | .one f => .many f
  | .many f => .many f

/-- Whether the window of a slot is the one being received. -/
def Line.receiving (l : Line) (slot : Option (Fin 8)) : Bool :=
  match l.phase, slot with
  | .window k, some j => decide (k = j)
  | _, _ => false

/-- Whether the line takes transmissions: driven, past the end of its frame (R48). -/
def Line.listening (l : Line) : Bool :=
  l.driven && (match l.phase with | .window _ | .over => true | _ => false)

/-- The start of a transmission (R48): not detected while another's 38 bits pass. -/
def Line.transmissionStart (time : Nat) (l : Line) : Line :=
  if l.listening = true ∧ l.receiver = none then
    let slot := l.cycle.slotAt time
    { l with
      receiver := some { start := time, slot := slot }
      record := if l.receiving slot then l.record.note time else l.record }
  else l

/-- The end of the transmission being taken, with its 38 bits: the first transmission of the window being
received is kept whole (R48). -/
def Line.transmissionEnd (time : Nat) (bits : BitVec 38) (l : Line) : Line :=
  match l.receiver with
  | none => l
  | some r =>
    let record := match l.record with
      | .one f =>
        if l.receiving r.slot = true ∧ f.start = r.start ∧ f.finish = none then
          .one { f with finish := some (time, bits) }
        else l.record
      | other => other
    { l with receiver := none, record := record }

/-! ### Classification (R49 to R52) -/

/-- The check of a report is right (R49). -/
def reportChecks (bits : BitVec 38) : Bool :=
  decide (crc5 (msbFirst (bits.extractLsb' 5 33)) = bits.extractLsb' 0 5)

/-- The position field of a report. -/
def reportPosition (bits : BitVec 38) : BitVec 6 := bits.extractLsb' 32 6

/-- The fields of a report that are handed to a position (11.1, R51). -/
def reportFields (bits : BitVec 38) : Report :=
  { hook := if bits.getLsbD 31 then .off else .on, present := bits.getLsbD 30, high := bits.getLsbD 29,
    serialHalf := bits.extractLsb' 13 16, zone := bits.extractLsb' 9 4, pulse := bits.extractLsb' 5 4 }

/-- The class of a window with the record it leaves (R50): the bits come with VALID only. -/
def classify (t : Timing) (p : Pos) (k : Fin 8) : WindowRecord → ReportClass × Option (BitVec 38)
  | .noStart => (.silent, none)
  | .many _ => (.slotFault, none)
  | .one f =>
    match f.finish with
    | none => (.slotFault, none)
    | some (finish, bits) =>
      if f.start < t.opens k.val ∨ t.opens (k.val + 1) < finish then (.slotFault, none)
      else if reportChecks bits = false then (.checkFault, none)
      else if reportPosition bits ≠ Pos.number p then (.positionFault, none)
      else (.valid, some bits)

/-- The class of a slot is written to its position and handed on: a valid report's fields, or one silent
cycle (R51). -/
def State.handOn (p : Pos) (c : ReportClass × Option (BitVec 38)) (s : State) : State :=
  let t := s.onCtx p fun x => { x with lastClass := c.1 }
  match c.2 with
  | some bits => t.validReport p (reportFields bits)
  | none => t.silentCycle p

/-- The line after the close of slot k's window: the record is cleared, but for a start already assigned to
the window that opens (R48, R50). -/
def Line.afterClose (k : Fin 8) (l : Line) : Line :=
  if h : k.val + 1 < 8 then
    let next : Fin 8 := ⟨k.val + 1, h⟩
    { l with
      phase := .window next
      record := match l.receiver with
        | some r => if r.slot = some next then .one { start := r.start, finish := none } else .noStart
        | none => .noStart }
  else { l with phase := .over, record := .noStart }

/-- The close of the slot window being received (R50 to R52): classified in RUNNING, not in BLANKING. -/
def State.windowClose (l : LineIx) (s : State) : State :=
  let c := s.line l
  match c.phase with
  | .window k =>
    let t :=
      if c.state = .running then s.handOn (posOf l k) (classify c.cycle (posOf l k) k c.record) else s
    if c.driven then t.onLine l (Line.afterClose k) else s
  | _ => s

/-! ### Settings (R43, R168) -/

/-- Whether an offset and eight windows of a pitch fit a period (R43). -/
def Timing.fits (t : Timing) : Bool := decide (t.offset + 8 * t.pitch ≤ 10 * t.period)

/-- The settings with a period written. -/
def Timing.withPeriod (t : Timing) (period : Nat) : Timing := { t with period := period }

/-- The settings with an offset and a pitch written. -/
def Timing.withWindows (t : Timing) (offset pitch : Nat) : Timing :=
  { t with offset := offset, pitch := pitch }

/-- The controller with its held settings replaced. -/
def Line.hold (t : Timing) (l : Line) : Line := { l with held := t }

/-! ### Commands -/

/-- CONFIGURE LINE PERIOD (R43, R168). -/
def execConfigureLinePeriod (line : BitVec 3) (period : BitVec 17) (s : State) :
    Host.Outcome State Fault Refusal :=
  done (takeFrame (fun s =>
    match lineOperand line with
    | none => s.answer .range 0
    | some l =>
      let taken := clamp 40 250 period.toNat
      let t := (s.line l).held.withPeriod taken
      if t.fits then (s.onLine l (Line.hold t)).answer .ok (toWord taken) else s.answer .range 0) s)

/-- CONFIGURE LINE TIMING (R43, R168): the offset is the value staging field. -/
def execConfigureLineTiming (line : BitVec 3) (pitch : BitVec 9) (s : State) :
    Host.Outcome State Fault Refusal :=
  done (takeFrame (fun s =>
    match lineOperand line with
    | none => s.answer .range 0
    | some l =>
      let offset := s.port.staging.value.toNat
      let t := (s.line l).held.withWindows offset pitch.toNat
      if 1000 < offset ∨ pitch.toNat < 25 ∨ 255 < pitch.toNat ∨ t.fits = false then s.answer .range 0
      else (s.onLine l (Line.hold t)).answer .ok 0) s)

/-- The answer of a line action: the states of the six lines after it (R56). -/
def State.answerLines (s : State) : State := s.answer .ok (s.lineStates.setWidth 16)

/-- ENABLE LINE (R40, R56). -/
def execEnableLine (line : BitVec 3) (s : State) : Host.Outcome State Fault Refusal :=
  done (takeFrame (whenRunning fun s =>
    match lineOperand line with
    | none => s.answer .range 0
    | some l => (s.enableLine l).answerLines) s)

/-- DISABLE LINE (R41, R56). -/
def execDisableLine (line : BitVec 3) (s : State) : Host.Outcome State Fault Refusal :=
  done (takeFrame (whenRunning fun s =>
    match lineOperand line with
    | none => s.answer .range 0
    | some l => (s.disableLine l).answerLines) s)

/-- SET SILENT LIMIT (R54). -/
def execSetSilentLimit (limit : BitVec 20) (s : State) : Host.Outcome State Fault Refusal :=
  done (takeFrame (fun s =>
    match inRange 2 15 limit with
    | none => s.answer .range 0
    | some n => (s.onSettings fun g => { g with silentLimit := n }).answer .ok (toWord n)) s)

/-- SET GRACE (R99). -/
def execSetGrace (window : BitVec 20) (s : State) : Host.Outcome State Fault Refusal :=
  done (takeFrame (fun s =>
    match inRange 0 30 window with
    | none => s.answer .range 0
    | some n => (s.onSettings fun g => { g with graceWindow := n }).answer .ok (toWord n)) s)

/-- SET CHECKPOINT (R87). -/
def execSetCheckpoint (step : BitVec 20) (s : State) : Host.Outcome State Fault Refusal :=
  done (takeFrame (fun s =>
    match inRange 1 64 step with
    | none => s.answer .range 0
    | some n => (s.onSettings fun g => { g with checkpoint := n }).answer .ok (toWord n)) s)

/-- CYCLE START (R45): the start of each cycle but the first after an enable (log 8). -/
def execCycleStart (line : LineIx) (s : State) : Host.Outcome State Fault Refusal :=
  done (unlessReset (State.cycleStart line) s)

/-- The end of the cycle-open frame (R45). -/
def execCycleOpenFrameEnd (line : LineIx) (s : State) : Host.Outcome State Fault Refusal :=
  done (unlessReset (State.onLine line Line.frameEnd) s)

/-- The start of a transmission, `time` microseconds after the end of the frame (R48, log 9). -/
def execTransmissionStart (line : LineIx) (time : Nat) (s : State) :
    Host.Outcome State Fault Refusal :=
  done (unlessReset (State.onLine line (Line.transmissionStart time)) s)

/-- The end of a transmission with its 38 bits, the first received most significant (R48, log 9). -/
def execTransmissionEnd (line : LineIx) (time : Nat) (bits : BitVec 38) (s : State) :
    Host.Outcome State Fault Refusal :=
  done (unlessReset (State.onLine line (Line.transmissionEnd time bits)) s)

/-- The close of a slot window (R50). -/
def execSlotWindowClose (line : LineIx) (s : State) : Host.Outcome State Fault Refusal :=
  done (unlessReset (State.windowClose line) s)

/-- A line fault event (R42). -/
def execLineFaultEvent (line : LineIx) (s : State) : Host.Outcome State Fault Refusal :=
  done (unlessReset (State.lineFault line) s)

end Sys2Proof.Machine
end

