-- ==== Sys2Proof/Machine/Positions.lean ====
section
/-!
DEFINITION. The host's position actions: enable, disable, release, read (R78 to R80).
-/

namespace Sys2Proof.Machine

/-- The answer of a position action: the position's state after it (R78, R79). -/
def State.answerPosition (p : Pos) (s : State) : State :=
  s.answer .ok ((s.ctx p).state.code.setWidth 16)

/-- The position's host enable mark is written. -/
def State.mark (p : Pos) (enabled : Bool) (s : State) : State :=
  s.onCtx p fun c => { c with enabled := enabled }

/-- ENABLE POSITION's effect (R78): the mark is set, and a position in OFF on a driven line becomes
VACANT. -/
def State.enablePosition (p : Pos) (s : State) : State :=
  let t := s.mark p true
  if (s.ctx p).state = .off ∧ (s.line (lineOf p)).driven = true then t.leaveOff p else t

/-- DISABLE POSITION's effect (R78): the mark is cleared, and the position enters OFF. -/
def State.disablePosition (p : Pos) (s : State) : State := (s.mark p false).enterOff p

/-- The serial that a snapshot shows: the claimed, else the candidate, else the refused, else 0 (R80). -/
def Position.shownSerial (c : Position) : Serial :=
  match c.claim, c.candidate, c.refusedSerial with
  | some k, _, _ => k.serial
  | none, some x, _ => x
  | none, none, some x => x
  | none, none, none => 0

/-- The code of a hook. -/
def Hook.code : Hook → BitVec 1
  | .on => 0
  | .off => 1

/-- The ten words of READ POSITION (R80, 11.3). -/
def Position.words (c : Position) : List Word :=
  let sub : BitVec 3 := if c.state = .grace then (c.call.map fun k => k.sub.code).getD 0 else 0
  let out := c.outstanding.isSome
  let dropped := (c.outstanding.map Outstanding.abandoned).getD false
  [ c.state.code ++ 0#1 ++ sub ++ 0#5 ++ BitVec.ofBool c.enabled ++ BitVec.ofBool out ++
      BitVec.ofBool dropped,
    c.lastClass.code ++ 0#1 ++ BitVec.ofNat 4 c.silentCount ++ c.lastHook.code ++ 0#2 ++
      BitVec.ofBool c.order.warn ++ c.order.verdict.code ] ++
  serialWords c.shownSerial ++
  [ toWord c.order.shown, toWord c.claimBalance, toWord c.working, toWord c.debited,
    0#4 ++ (c.call.map Call.zone).getD 0 ++ 0#6 ++
      BitVec.ofNat 2 ((c.call.map fun k => k.phase.val).getD 0),
    toWord ((c.call.map Call.amount).getD 0) ]

/-- ENABLE POSITION (R78). -/
def execEnablePosition (position : BitVec 20) (s : State) : Host.Outcome State Fault Refusal :=
  done (takeFrame (whenRunning fun s =>
    match positionOperand position with
    | none => s.answer .range 0
    | some p => (s.enablePosition p).answerPosition p) s)

/-- DISABLE POSITION (R78). -/
def execDisablePosition (position : BitVec 20) (s : State) : Host.Outcome State Fault Refusal :=
  done (takeFrame (whenRunning fun s =>
    match positionOperand position with
    | none => s.answer .range 0
    | some p => (s.disablePosition p).answerPosition p) s)

/-- RELEASE POSITION (R79): the mark is left as it stands. -/
def execReleasePosition (position : BitVec 20) (s : State) : Host.Outcome State Fault Refusal :=
  done (takeFrame (whenRunning fun s =>
    match positionOperand position with
    | none => s.answer .range 0
    | some p => (s.enterOff p).answerPosition p) s)

/-- READ POSITION (R80): ten words into the readout buffer. -/
def execReadPosition (position : BitVec 20) (s : State) : Host.Outcome State Fault Refusal :=
  done (takeFrame (whenRunning fun s =>
    match positionOperand position with
    | none => s.answer .range 0
    | some p => (s.load (s.ctx p).words).answer .ok 10) s)

end Sys2Proof.Machine
end

