-- ==== Sys2Proof/Machine/Cards.lean ====
section
/-!
DEFINITION. The card and slot actions of the station port, with their tests in the order of R158, the
actions that wait for a store read, and the region locks (R18, R151, R158 to R167, R183).
-/

namespace Sys2Proof.Machine

/-! ### Answering an action (R151, R156) -/

/-- Whether an action is latched (R156). -/
def ActionKind.isLatched : ActionKind → Bool
  | .credit | .setExpiry | .block | .unblock => true
  | .queryCard | .querySlot => false

/-- An action that may wait is answered: the latch is cleared for a latched one (R156), and the answer of an
action that was working is unsent (R151). -/
def State.answerAction (kind : ActionKind) (code : ReplyCode) (data : Word) (s : State) : State :=
  (s.answer code data).onPort fun p =>
    { p with
      latch := if kind.isLatched then false else p.latch
      result := match p.result with
        | .working _ => .unsent
        | r => r }

/-- An action waits for a read of a granule of its record (R151, R159): the held reply becomes NO REPLY with
data 1. -/
def State.await (a : HostAction) (g : GranuleName) (s : State) : State :=
  ((s.answer .noReply 1).onPort fun p => { p with result := .working a }).requestRead
    { who := .host, slot := a.slot, granule := g }

/-! ### CREDIT, SET EXPIRY, BLOCK, UNBLOCK (R158, R159, R161 to R163) -/

/-- The image of a CREDIT (R14, R161). -/
def Image.credited (i : Image) (value : Nat) : Image :=
  { i with balance := i.balance + value, state := if i.state = .empty then .active else i.state }

/-- The image of an UNBLOCK (R15). -/
def Image.unblocked (i : Image) : Image :=
  { i with
    state := if i.balance = 0 then .empty else if i.useCount = 0 then .fresh else .active }

/-- What an action makes of the newest image: an image to queue with the data of its OK, an OK that queues
nothing, or a refusal (R161 to R163). -/
inductive Build where
  | queue (image : Image) (data : Word)
  | answer (code : ReplyCode) (data : Word)
  deriving DecidableEq, Repr

/-- What an action builds of the newest image and the staging fields (R161 to R163). SET EXPIRY leaves the state
as it is at balance 0 too (R16, R161; log 28). A query builds nothing. -/
def ActionKind.build (kind : ActionKind) (g : Staging) (i : Image) : Build :=
  match kind with
  | .credit =>
    if Config.maxBalance < i.balance + g.value.toNat then .answer .range 0
    else .queue (i.credited g.value.toNat) (toWord (i.balance + g.value.toNat))
  | .setExpiry => .queue { i with expiry := g.expiry } g.expiry
  | .block =>
    if i.state = .blocked then .answer .ok (CardState.blocked.code.setWidth 16)
    else .queue { i with state := .blocked } (CardState.blocked.code.setWidth 16)
  | .unblock =>
    if i.state = .blocked then .queue i.unblocked (i.unblocked.state.code.setWidth 16)
    else .answer .badState 0
  | .queryCard | .querySlot => .answer .badState 0

/-- An action with its newest image (R158 steps 8 and 9): it builds, offers and answers. -/
def State.applyAction (kind : ActionKind) (x : Slot) (i : Image) (s : State) : State :=
  match kind.build s.port.staging i with
  | .answer code data => s.answerAction kind code data
  | .queue image data =>
    match s.offerValue x image .host with
    | none => s.answerAction kind .queueFull 0
    | some t => t.answerAction kind .ok data

/-- Whether a claim for the record stands: live, in flight or held (R158 step 6). -/
def State.inUse (e : DirEntry) (s : State) : Bool := e.claimedBy.isSome || s.claimPending e.serial

/-- What a read for an action has given: none was made, or the image it may use is still to be read; both
value copies read bad or blank; or the image read. -/
inductive ActionRead where
  | needed
  | unreadable
  | image (image : Image)
  deriving DecidableEq, Repr

/-- An action from step 6 of R158 on (R159), with what its read has given. -/
def State.fromStepSix (kind : ActionKind) (e : DirEntry) (r : ActionRead) (s : State) : State :=
  if (kind = .credit ∨ kind = .setExpiry) ∧ s.inUse e = true then s.answerAction kind .inUse 0
  else
    match (if kind = .block then e.claimedBy else none) with
    | some p => (s.blockThrough p).answerAction kind .ok (CardState.blocked.code.setWidth 16)
    | none =>
      if e.condition = .issuing then s.answerAction kind .pending 0
      else
        match e.live with
        | none => s.answerAction kind .badState 0
        | some (copy, _) =>
          if r = .unreadable then s.answerAction kind .badState 0
          else
            match s.queuedImage e.slot, r with
            | some i, _ => s.applyAction kind e.slot i
            | none, .image i => s.applyAction kind e.slot i
            | none, _ =>
              s.await
                { kind := kind, serial := e.serial, slot := e.slot, stage := .live none,
                  appeared := false } copy.granule

/-- The tests of steps 4 and 5 of R158: UNKNOWN CARD, LOCKED. -/
def State.onUnlockedCard (act : DirEntry → State → State) (s : State) : State :=
  match s.lookup s.port.staging.serial with
  | none => s.answerLatched .unknownCard 0
  | some e => if s.slotLocked e.slot then s.answerLatched .locked 0 else act e s

/-! ### QUERY CARD and QUERY SLOT (R166, R167, R183) -/

/-- The twelve words of QUERY CARD (R166, R183, 11.3), none standing for what was unreadable. -/
def DirEntry.words (e : DirEntry) (identity : Option Identity) (image : Option Image) : List Word :=
  serialWords e.serial ++
  [ toWord e.slot.val,
    e.cls.code ++ e.condition.code ++ BitVec.ofBool identity.isNone ++ BitVec.ofBool image.isNone ++
      0#4 ++ posCode e.claimedBy,
    match e.live with
    | none => 0x8000#16
    | some (copy, generation) => 0#7 ++ copy.code ++ generation,
    toWord ((identity.map Identity.faceValue).getD 0),
    (identity.map Identity.issueDay).getD 0,
    match image with
    | none => 0
    | some i => i.state.code ++ 0#8 ++ posCode i.lastPosition,
    toWord ((image.map Image.balance).getD 0),
    (image.map Image.expiry).getD 0,
    (image.map Image.useCount).getD 0,
    (image.map Image.lastUseDay).getD 0 ]

/-- The class of a slot (R26, 11.2): 2 indexed, 0 free, 1 orphan. -/
def State.slotClass (s : State) (x : Slot) : BitVec 2 :=
  if (s.bySlot x).isSome then 2 else if s.dir.free.contains x then 0 else 1

/-- The first word of QUERY SLOT (11.3). -/
def slotWord (cls : BitVec 2) (x : Slot) : Word := cls ++ 0#1 ++ BitVec.ofNat 13 x.val

/-- A query completes: the words are loaded and the query is answered (R166, R167, R170). -/
def State.finishQuery (kind : ActionKind) (e : DirEntry) (identity : Option Identity)
    (image : Option Image) (s : State) : State :=
  let words := e.words identity image
  if kind = .querySlot then
    (s.load (slotWord 2 e.slot :: words)).answerAction kind .ok (0#6 ++ 2#2 ++ 0#2 ++ 13#6)
  else (s.load words).answerAction kind .ok 12

/-- A query's value part, once its identity is settled (R31, R166, R183): the queued image, no image where
the live copy is absent, or a read of the live copy. -/
def State.queryValue (kind : ActionKind) (e : DirEntry) (identity : Option Identity) (s : State) :
    State :=
  match s.queuedImage e.slot, e.live with
  | some i, _ => s.finishQuery kind e identity (some i)
  | none, none => s.finishQuery kind e identity none
  | none, some (copy, _) =>
    s.await
      { kind := kind, serial := e.serial, slot := e.slot, stage := .live identity, appeared := false }
      copy.granule

/-- A query of an indexed record (R151, R166, R183): an ISSUING record's items come from its ISSUE entry at
once; else the identity granule is read first (log 22). -/
def State.startQuery (kind : ActionKind) (e : DirEntry) (s : State) : State :=
  if e.condition = .issuing then
    s.finishQuery kind e ((s.issueEntry e.slot).map Prod.fst) ((s.issueEntry e.slot).map Prod.snd)
  else
    s.await
      { kind := kind, serial := e.serial, slot := e.slot, stage := .identity, appeared := false }
      .identity

/-! ### The reads of a working action (R146, R159) -/

/-- A working action goes on with its newest image resolved, none where both copies were unreadable. -/
def State.actionResolved (a : HostAction) (identity : Option Identity) (image : Option Image)
    (s : State) : State :=
  match s.lookup a.serial with
  | none => s
  | some e =>
    match a.kind with
    | .queryCard | .querySlot =>
      if a.appeared = true ∨ (s.queuedImage a.slot).isSome then s.queryValue a.kind e identity
      else s.finishQuery a.kind e identity image
    | _ =>
      s.fromStepSix a.kind e
        (match image with
        | none => .unreadable
        | some i => if a.appeared then .needed else .image i)

/-- A working action's read of its record's identity granule completes: an unreadable one makes a GOOD
record DAMAGED (R5, R146). -/
def State.actionIdentity (o : ReadOutcome Identity) (s : State) : State :=
  match s.port.result with
  | .working a =>
    let t := if o.valid.isNone then s.foundUnreadable a.slot else s
    match t.lookup a.serial with
    | none => t
    | some e => t.queryValue a.kind e o.valid
  | _ => s

/-- A working action's read of a value copy completes (R146), as a claim's does (R32, log 14). -/
def State.actionValue (copy : Copy) (o : ReadOutcome (Image × Gen)) (s : State) : State :=
  match s.port.result with
  | .working a =>
    let go (second : Bool) (identity : Option Identity) : State :=
      match o.valid with
      | some (i, g) =>
        let t := if second then s.noteLive a.slot copy g else s
        (if o.isCorrected then t.offerRefresh a.slot else t).actionResolved a identity (some i)
      | none =>
        if second then (s.foundUnreadable a.slot).actionResolved a identity none
        else s.await { a with stage := .other identity } copy.other.granule
    match a.stage with
    | .identity => s
    | .live identity => go false identity
    | .other identity => go true identity
  | _ => s

/-! ### Commands -/

/-- CREDIT (R161). -/
def execCredit (s : State) : Host.Outcome State Fault Refusal :=
  done (takeFrame (latched fun s =>
    if s.port.staging.value = 0 then s.answerLatched .range 0
    else s.onUnlockedCard fun e t => t.fromStepSix .credit e .needed) s)

/-- SET EXPIRY (R161). -/
def execSetExpiry (s : State) : Host.Outcome State Fault Refusal :=
  done (takeFrame (latched (State.onUnlockedCard fun e t => t.fromStepSix .setExpiry e .needed)) s)

/-- BLOCK (R162). -/
def execBlock (s : State) : Host.Outcome State Fault Refusal :=
  done (takeFrame (latched (State.onUnlockedCard fun e t => t.fromStepSix .block e .needed)) s)

/-- UNBLOCK (R163). -/
def execUnblock (s : State) : Host.Outcome State Fault Refusal :=
  done (takeFrame (latched (State.onUnlockedCard fun e t => t.fromStepSix .unblock e .needed)) s)

/-- The identity that ISSUE writes (R4, R160). -/
def State.issueIdentity (s : State) : Identity :=
  { serial := s.port.staging.serial, cls := s.port.staging.cls,
    faceValue := s.port.staging.value.toNat, issueDay := s.today }

/-- The first value image of a card (R12). -/
def State.issueImage (s : State) : Image :=
  { state := .fresh, balance := s.port.staging.value.toNat, expiry := s.port.staging.expiry, useCount := 0,
    lastPosition := none, lastUseDay := 0 }

/-- The slot that ISSUE takes: the first of the free-slot list in an unlocked region (R19, R160). -/
def State.issueSlot (s : State) : Option Slot := s.dir.free.find? fun x => !s.slotLocked x

/-- ISSUE accepted (R37, R160): the slot leaves the free-slot list, the ISSUING entry goes to the tail of
its chain, and the ISSUE entry joins the queue. -/
def State.issueInto (x : Slot) (s : State) : State :=
  (s.onDir fun d =>
    { d with
      free := d.free.filter (· ≠ x)
      entries := d.entries ++
        [{ serial := s.port.staging.serial, slot := x, cls := s.port.staging.cls, condition := .issuing,
           claimedBy := none, live := none }] }).joinQueue
    { work := .issue s.issueIdentity s.issueImage, slot := x, attempts := 0, origin := .host }

/-- ISSUE (R160). -/
def execIssue (s : State) : Host.Outcome State Fault Refusal :=
  done (takeFrame (latched fun s =>
    let g := s.port.staging
    if g.serial = 0 ∨ g.serial = 4294967295#32 ∨ g.value = 0 ∨ Config.maxBalance < g.value.toNat then
      s.answerLatched .range 0
    else if (s.lookup g.serial).isSome then s.answerLatched .exists 0
    else if s.engine.locks = 0xFFFF#16 then s.answerLatched .locked 0
    else
      match s.issueSlot with
      | none => s.answerLatched .storeFull 0
      | some x =>
        if s.hasRoom then (s.issueInto x).answerLatched .ok (toWord x.val)
        else s.answerLatched .queueFull 0) s)

/-- RETIRE accepted (R38, R164): the entry is unlinked, the orphan count rises, and a RETIRE entry joins
the queue. -/
def State.retireRecord (x : Slot) (s : State) : State :=
  (s.onDir fun d =>
    { d with entries := d.entries.filter (fun e => e.slot ≠ x), orphans := d.orphans + 1 }).joinQueue
    { work := .retire, slot := x, attempts := 0, origin := .host }

/-- RETIRE (R164). -/
def execRetire (s : State) : Host.Outcome State Fault Refusal :=
  done (takeFrame (latched (State.onUnlockedCard fun e s =>
    if s.inUse e then s.answerLatched .inUse 0
    else if s.hasEntry e.slot then s.answerLatched .pending 0
    else if s.hasRoom then (s.retireRecord e.slot).answerLatched .ok (toWord e.slot.val)
    else s.answerLatched .queueFull 0)) s)

/-- Whether an entry erases its slot: RETIRE or ERASE-SLOT. -/
def QueueEntry.isErase (e : QueueEntry) : Bool :=
  match e.work with
  | .retire | .eraseSlot => true
  | _ => false

/-- Whether a slot has a RETIRE or ERASE-SLOT entry, waiting or in flight (R165). -/
def State.hasErase (s : State) (x : Slot) : Bool :=
  (s.engine.waiting ++ s.inFlight.toList).any fun e => e.isErase && e.slot == x

/-- ERASE SLOT (R165). -/
def execEraseSlot (s : State) : Host.Outcome State Fault Refusal :=
  done (takeFrame (latched fun s =>
    let x := s.port.staging.slot
    if s.slotLocked x then s.answerLatched .locked 0
    else if s.hasErase x then s.answerLatched .pending 0
    else if s.slotClass x ≠ 1 then s.answerLatched .badState 0
    else if s.hasRoom then
      (s.joinQueue { work := .eraseSlot, slot := x, attempts := 0, origin := .host }).answerLatched .ok
        (toWord x.val)
    else s.answerLatched .queueFull 0) s)

/-- QUERY CARD (R166). -/
def execQueryCard (s : State) : Host.Outcome State Fault Refusal :=
  done (takeFrame (whenRunning fun s =>
    match s.lookup s.port.staging.serial with
    | none => s.answer .unknownCard 0
    | some e => s.startQuery .queryCard e) s)

/-- QUERY SLOT (R167). -/
def execQuerySlot (s : State) : Host.Outcome State Fault Refusal :=
  done (takeFrame (whenRunning fun s =>
    let x := s.port.staging.slot
    match s.bySlot x with
    | none =>
      (s.load [slotWord (s.slotClass x) x]).answer .ok (0#6 ++ s.slotClass x ++ 0#2 ++ 1#6)
    | some e => s.startQuery .querySlot e) s)

/-- The region locks with one region's lock written (R18). -/
def withLock (locks : BitVec 16) (r : Fin 16) (locked : Bool) : BitVec 16 :=
  if locked then locks ||| 1#16 <<< r.val else locks &&& ~~~(1#16 <<< r.val)

/-- A region is locked or unlocked, and the lock state answered (R18). -/
def State.setLock (region : BitVec 20) (locked : Bool) (s : State) : State :=
  match regionOperand region with
  | none => s.answerLatched .range 0
  | some r =>
    let t := s.onEngine fun e => { e with locks := withLock e.locks r locked }
    t.answerLatched .ok t.engine.locks

/-- UNLOCK REGION (R18). -/
def execUnlockRegion (region : BitVec 20) (s : State) : Host.Outcome State Fault Refusal :=
  done (takeFrame (latched (State.setLock region false)) s)

/-- LOCK REGION (R18). -/
def execLockRegion (region : BitVec 20) (s : State) : Host.Outcome State Fault Refusal :=
  done (takeFrame (latched (State.setLock region true)) s)

end Sys2Proof.Machine
end

