-- ==== Sys2Proof/Machine/Store.lean ====
section
/-!
DEFINITION. The store engine's own events: the completion of a read, with the rebuild it feeds, the start of
a queue entry, and the completions of its steps (02 section 2.5, 07).
-/

namespace Sys2Proof.Machine

/-! ### The rebuild (R28, R29) -/

/-- The granule that the rebuild reads at a stage. -/
def RebuildStage.granule : RebuildStage → GranuleName
  | .identity => .identity
  | .copyA _ => .copyA
  | .copyB _ _ _ => .copyB

/-- The read that the rebuild goes on with. -/
def Rebuild.request (r : Rebuild) : ReadRequest :=
  { who := .rebuild, slot := r.slot, granule := r.stage.granule }

/-- The rebuild comes to a granule of its slot. It has not asked for the read yet (log 31). -/
def State.rebuildAt (x : Slot) (stage : RebuildStage) (s : State) : State :=
  s.onDir fun d => { d with rebuild := some { slot := x, stage := stage } }

/-- The rebuild asks for its next read, unless a read is in flight. Between two of its reads the engine goes on
with its queue, and a request reaches it with the STORE_READ_COMPLETE that ends the read (R28, R131; DESIGN CHOICE,
log 31). -/
def State.rebuildAsks (s : State) : State :=
  match s.dir.rebuild with
  | some r => if s.engine.reading.isSome then s else s.requestRead r.request
  | none => s

/-- A slot has been classified: the rebuild goes on with the next, and after slot 8,191 the directory is
READY and the mode RUNNING (R28, R29, R157). -/
def State.rebuildNext (x : Slot) (s : State) : State :=
  if h : x.val + 1 < 8192 then s.rebuildAt ⟨x.val + 1, h⟩ .identity
  else
    (s.onDir fun d => { d with rebuild := none, ready := true }).onPort fun p =>
      { p with mode := .running }

/-- The rebuild counts its slot as an orphan (R26, R28). -/
def State.rebuildOrphan (x : Slot) (s : State) : State :=
  (s.onDir fun d => { d with orphans := d.orphans + 1 }).rebuildNext x

/-- The identity read of the rebuild's slot (R28). Of a slot to be indexed it reads copy A and then copy B: the
manual gives no order of the two (DESIGN CHOICE, log 32). -/
def State.rebuildIdentity (x : Slot) (o : ReadOutcome Identity) (s : State) : State :=
  match o.valid with
  | some i =>
    if (s.lookup i.serial).isSome then s.rebuildOrphan x else s.rebuildAt x (.copyA i)
  | none =>
    if o = .blank then (s.onDir fun d => { d with free := d.free ++ [x] }).rebuildNext x
    else s.rebuildOrphan x

/-- The entry that the rebuild makes of a slot (R28). -/
def rebuiltEntry (x : Slot) (i : Identity) (live : Option (Copy × Image × Gen)) : DirEntry :=
  { serial := i.serial, slot := x, cls := i.cls, claimedBy := none
    condition := if live.isSome then .good else .damaged
    live := live.map fun l => (l.1, l.2.2) }

/-- The slot is indexed from what its copies read (R28); a corrected copy offers its refresh with the image
of the live copy as the rebuild read it. Two copies that read bad or blank raise STORE FAULT with the slot and the
mark that a read found it (R157, R173; DEDUCED, log 33). -/
def State.rebuildIndex (x : Slot) (i : Identity) (a b : Option (Image × Gen)) (corrected : Bool)
    (s : State) : State :=
  let live := liveOf a b
  let t := s.onDir fun d => { d with entries := d.entries ++ [rebuiltEntry x i live] }
  let u := match live with
    | some (_, image, _) => if corrected then (t.offerValue x image .refresh).getD t else t
    | none => t.raiseStoreFault x none
  u.rebuildNext x

/-- The rebuild's read of a value copy completes (R28): copy A's, after which copy B is read (log 32), or copy B's,
which indexes the slot. -/
def State.rebuildValue (x : Slot) (o : ReadOutcome (Image × Gen)) (s : State) : State :=
  match s.dir.rebuild.map Rebuild.stage with
  | some (.copyA i) => s.rebuildAt x (.copyB i o.valid o.isCorrected)
  | some (.copyB i a corrected) => s.rebuildIndex x i a o.valid (corrected || o.isCorrected)
  | _ => s

/-- The start-up (R181): mode STARTING, the six lines enabled from A to F, and the rebuild begun with the read of
slot 0's identity granule. -/
def State.startUp (s : State) : State :=
  ((allLines.foldl (fun t l => t.enableLine l) (s.onPort fun p => { p with mode := .starting })).rebuildAt
    0 .identity).rebuildAsks

/-! ### The completion of a read (R130, R131) -/

/-- An identity read goes to the block that asked. No claim reads an identity. -/
def State.identityRead (r : ReadRequest) (o : ReadOutcome Identity) (s : State) : State :=
  match r.who with
  | .rebuild => s.rebuildIdentity r.slot o
  | .host => s.actionIdentity o
  | .claim _ => s

/-- A read of a value copy goes to the block that asked. -/
def State.valueRead (r : ReadRequest) (c : Copy) (o : ReadOutcome (Image × Gen)) (s : State) : State :=
  match r.who with
  | .rebuild => s.rebuildValue r.slot o
  | .host => s.actionValue c o
  | .claim p => s.claimRead p c o

/-- The outcome of the read in flight is counted and handed over, from the cells as they now are (R1, R130,
R144). -/
def State.deliverRead (r : ReadRequest) (s : State) : State :=
  let rec' := s.record r.slot
  let value (c : Copy) : State :=
    let o := readValue (rec'.copy c)
    (s.countCorrected o.isCorrected).valueRead r c o
  match r.granule with
  | .identity =>
    let o := readIdentity rec'.identity
    (s.countCorrected o.isCorrected).identityRead r o
  | .copyA => value .a
  | .copyB => value .b

/-- The read in flight completes (R130, R131): then the next request is served, or the suspended step
resumes. With no read in flight, the rebuild's next read is asked for first (log 31); without a rebuild the event
does not occur (log 6). -/
def State.readComplete (change : CellChange) (s : State) : State :=
  let t := s.rebuildAsks
  match t.engine.reading with
  | none => s
  | some r =>
    ((t.onRecord r.slot fun x => x.after r.granule change).deliverRead r).serveNext

/-! ### The start of an entry (R132, R137, R141, R142) -/

/-- An entry is in flight at the beginning of a step, and the cells of its slot as that leaves them (R131). -/
def State.begin (e : QueueEntry) (step : FlightStep) (s : State) : State :=
  (s.onRecord e.slot (step.cells step.first)).onEngine fun g =>
    { g with flight := some { entry := e, step := step, progress := step.first } }

/-- The head entry leaves the waiting entries and goes in flight at its first step. -/
def State.start (e : QueueEntry) (step : FlightStep) (s : State) : State :=
  (s.onEngine fun g => { g with waiting := g.waiting.drop 1 }).begin e step

/-- An entry starts (R132) when nothing is in flight, no read waits and the queue has a waiting entry;
otherwise the event does not occur (log 6). A VALUE entry of a record without a live copy noted, which no
rule lets join the queue, does not start (log 27). -/
def State.entryStart (s : State) : State :=
  if s.engine.reading.isSome ∨ s.engine.readList ≠ [] ∨ s.engine.flight.isSome then s
  else
    match s.engine.waiting with
    | [] => s
    | e :: _ =>
      match e.work with
      | .value _ =>
        match (s.bySlot e.slot).bind DirEntry.live with
        | some (c, g) => s.start e (.writeValue c.other (g + 1))
        | none => s
      | .issue _ _ => s.start e .issueErase
      | .retire | .eraseSlot => s.start e .erase

/-! ### The completions of the steps (R138, R139, R141, R142, R144) -/

/-- The flight when a step of it can complete: no read is in flight (R131). -/
def State.stepping (s : State) : Option Flight :=
  if s.engine.reading.isSome then none else s.engine.flight

/-- What the verify of a step finds in the cells: what the step left there, `left`, unless the verify had begun
before a read suspended it, when the cells hold it already (R131). -/
def State.found (f : Flight) (left : Record) (s : State) : Record :=
  match f.progress with
  | .verifying _ => s.record f.entry.slot
  | _ => left

/-- The entry in flight leaves the flight. -/
def State.endFlight (s : State) : State := s.onEngine fun g => { g with flight := none }

/-- A failed entry is put back at the head of the waiting entries with its attempts raised (R139, R142). -/
def State.putBack (e : QueueEntry) (s : State) : State :=
  s.onEngine fun g => { g with waiting := { e with attempts := e.attempts + 1 } :: g.waiting }

/-- The waiting VALUE entry of a slot moves to the head with the given attempts (R139). -/
def State.moveToHead (x : Slot) (attempts : Nat) (s : State) : State :=
  s.onEngine fun g =>
    let mine (e : QueueEntry) : Bool := e.isValue && e.slot == x
    { g with
      waiting := ((g.waiting.filter mine).map fun e => { e with attempts := attempts }) ++
        g.waiting.filter fun e => !mine e }

/-- A GOOD record becomes WORN; any other condition stays (R21, R139). -/
def State.wearOut (x : Slot) (s : State) : State :=
  s.onEntry x fun e => { e with condition := if e.condition = .good then .worn else e.condition }

/-- A VALUE write has verified (R138): the note moves, the entry is removed, and a corrected verify offers a
refresh. -/
def State.valueWritten (x : Slot) (c : Copy) (g : Gen) (corrected : Bool) (s : State) : State :=
  let t := (s.noteLive x c g).endFlight
  if corrected then t.offerRefresh x else t

/-- A VALUE write has failed its verify (R139). -/
def State.valueFailed (e : QueueEntry) (s : State) : State :=
  let t := s.endFlight
  if Config.lastAttempt ≤ e.attempts then
    (t.wearOut e.slot).raiseStoreFault e.slot (some (.value, e.origin))
  else if t.hasWaitingValue e.slot then t.moveToHead e.slot (e.attempts + 1)
  else t.putBack e

/-- A VALUE write finishes its verify, having left its target as `left` (R137 to R139, R144). -/
def State.valueWriteComplete (left : Granule RawValue) (s : State) : State :=
  match s.stepping with
  | some f =>
    match f.step with
    | .writeValue c g =>
      let e := f.entry
      let cells := (s.found f (blankRecord.withCopy c left)).copy c
      let o := readValue cells
      let t := (s.onRecord e.slot fun r => r.withCopy c cells).countCorrected o.isCorrected
      if o.valid = e.image.map (fun i => (i, g)) then t.valueWritten e.slot c g o.isCorrected
      else (if o.isCorrected then t.offerRefresh e.slot else t).valueFailed e
    | _ => s
  | none => s

/-- Whether every granule of a record reads blank. -/
def readsBlank (r : Record) : Bool := decide (r = blankRecord)

/-- The corrected reads of an erase's verify are counted (R144). The verify reads all three granules, also after
one that is not blank: the manual does not say whether it then reads on (DESIGN CHOICE, log 37). -/
def State.countVerify (r : Record) (s : State) : State :=
  ((s.countCorrected (readIdentity r.identity).isCorrected).countCorrected
    (readValue r.copyA).isCorrected).countCorrected (readValue r.copyB).isCorrected

/-- An ISSUE step has failed its verify (R141): DAMAGED with no live copy, and STORE FAULT. -/
def State.issueFailed (e : QueueEntry) (s : State) : State :=
  ((s.endFlight).onEntry e.slot fun d => { d with condition := .damaged, live := none }).raiseStoreFault
    e.slot (some (.issue, e.origin))

/-- A step of an ISSUE entry finishes its verify, having left its granules as `left` gives (R141, R144). -/
def State.issueStepComplete (left : Record) (s : State) : State :=
  match s.stepping with
  | some f =>
    let e := f.entry
    let r := s.found f left
    match f.step, e.work with
    | .issueErase, _ =>
      let t := (s.onRecord e.slot fun _ => r).countVerify r
      if readsBlank r then t.begin e .issueIdentity else t.issueFailed e
    | .issueIdentity, .issue identity _ =>
      let o := readIdentity r.identity
      let t := (s.onRecord e.slot fun x => x.take .identity r).countCorrected o.isCorrected
      if o.valid = some identity then t.begin e .issueCopyA else t.issueFailed e
    | .issueCopyA, _ =>
      let o := readValue r.copyA
      let t := (s.onRecord e.slot fun x => x.take .copyA r).countCorrected o.isCorrected
      if o.valid = e.image.map (fun i => (i, 0)) then
        t.endFlight.onEntry e.slot fun d => { d with condition := .good, live := some (.a, 0) }
      else t.issueFailed e
    | _, _ => s
  | none => s

/-- The erase of a RETIRE or ERASE-SLOT entry finishes its verify, having left the slot as `left` (R142,
R144). -/
def State.eraseComplete (left : Record) (s : State) : State :=
  match s.stepping with
  | some f =>
    let e := f.entry
    if f.step = .erase then
      let r := s.found f left
      let t := ((s.onRecord e.slot fun _ => r).countVerify r).endFlight
      if readsBlank r then
        t.onDir fun d => { d with free := d.free ++ [e.slot], orphans := d.orphans - 1 }
      else if Config.lastAttempt ≤ e.attempts then
        t.raiseStoreFault e.slot (some (e.kind, e.origin))
      else t.putBack e
    else s
  | none => s

/-! ### Commands -/

/-- STORE READ COMPLETE (R130): `change` is what has befallen the granule's cells (log 10). -/
def execStoreReadComplete (change : CellChange) (s : State) : Host.Outcome State Fault Refusal :=
  done (unlessReset (State.readComplete change) s)

/-- ENTRY START (R132). -/
def execEntryStart (s : State) : Host.Outcome State Fault Refusal :=
  done (unlessReset State.entryStart s)

/-- VALUE WRITE COMPLETE (R138, log 10). -/
def execValueWriteComplete (left : Granule RawValue) (s : State) : Host.Outcome State Fault Refusal :=
  done (unlessReset (State.valueWriteComplete left) s)

/-- ISSUE STEP COMPLETE (R141, log 10). -/
def execIssueStepComplete (left : Record) (s : State) : Host.Outcome State Fault Refusal :=
  done (unlessReset (State.issueStepComplete left) s)

/-- ERASE COMPLETE (R142, log 10). -/
def execEraseComplete (left : Record) (s : State) : Host.Outcome State Fault Refusal :=
  done (unlessReset (State.eraseComplete left) s)

end Sys2Proof.Machine
end

