-- ==== Sys2Proof/Machine/Port.lean ====
section
/-!
DEFINITION. The station port's own commands: transfers, the reply shifted out, status, the readout buffer,
the write-enable latch and the staging fields (R148 to R156, R170, R171).
-/

namespace Sys2Proof.Machine

/-- The check of a reply: CRC-4 over its 28 covered bits, the two lowest bits inverted for BAD KIND
(R150). -/
def replyCheck (code : ReplyCode) (body : BitVec 28) : BitVec 4 :=
  if code = .badKind then crc4 (msbFirst body) ^^^ 0b0011#4 else crc4 (msbFirst body)

/-- The 28 covered bits of the reply shifted out by a transfer starting now: status, code, data (11.2). -/
def State.replyBody (s : State) : BitVec 28 := s.status ++ s.port.reply.code.code ++ s.port.reply.data

/-- The 32 bits of the reply shifted out by a transfer starting now (R150, 11.2). -/
def State.replyWord (s : State) : BitVec 32 :=
  s.replyBody ++ replyCheck s.port.reply.code s.replyBody

/-- A transfer starts (R149 to R151): the mark and the result state are noted, and with the mark set the held
reply is formed with the status sampled now. -/
def State.transferStart (s : State) : State :=
  s.onPort fun p =>
    { p with
      transfer := some {
        owned := p.ownerMark, unsent := decide (p.result = .unsent)
        shifted := if p.ownerMark then some s.replyWord else none } }

/-- What SDO shows at clock n of a transfer, counted from 0: undriven without a transfer or without the
mark; the reply's bits, most significant first; high after the 32nd (R149, R177). -/
def State.sdo (s : State) (n : Nat) : Option Bool :=
  if s.inReset then none
  else (s.port.transfer.bind Transfer.shifted).map fun w => if n < 32 then w.getLsbD (31 - n) else true

/-- The data of READ STATUS: status bits, mode, queue entries (R153, 11.2). -/
def State.statusWord (s : State) : Word :=
  s.status ++ s.port.mode.code ++ 0#1 ++ BitVec.ofNat 7 s.queueCount

/-! ### Transfers -/

/-- TRANSFER START: SCS is asserted (R149 to R151). While a transfer is under way another does not start
(log 6). -/
def execTransferStart (s : State) : Host.Outcome State Fault Refusal :=
  done (unlessReset (fun s => if s.port.transfer.isSome then s else s.transferStart) s)

/-- An ignored transfer: FE is set, and nothing else of the port changes but that the transfer is over
(R148). -/
def execTransferIgnored (s : State) : Host.Outcome State Fault Refusal :=
  done (unlessReset (State.onPort fun p => { p with fe := true, transfer := none }) s)

/-- An accepted frame with another unit's address (R149, R151). -/
def execFrameForOtherUnit (s : State) : Host.Outcome State Fault Refusal :=
  done (unlessReset (State.endTransfer false) s)

/-- A frame of an unknown kind (R150). -/
def execBadKind (s : State) : Host.Outcome State Fault Refusal :=
  done (takeFrame (State.answer .badKind 0) s)

/-- READ STATUS (R153): RS and FE are cleared after the data is taken. -/
def execReadStatus (s : State) : Host.Outcome State Fault Refusal :=
  done (takeFrame (fun s =>
    (s.answer .ok s.statusWord).onPort fun p => { p with rs := false, fe := false }) s)

/-- READ BUFFER (R171): the word at the pointer, or the empty marker. -/
def execReadBuffer (s : State) : Host.Outcome State Fault Refusal :=
  done (takeFrame (fun s =>
    match s.port.buffer[s.port.pointer]? with
    | some w => (s.answer .ok w).onPort fun p => { p with pointer := p.pointer + 1 }
    | none => s.answer .ok 0xFFF0#16) s)

/-- ENABLE WRITE (R156). -/
def execEnableWrite (s : State) : Host.Outcome State Fault Refusal :=
  done (takeFrame (whenRunning fun s =>
    (s.answer .ok 0).onPort fun p => { p with latch := true }) s)

/-! ### Staging (R154, R155) -/

/-- A parameter frame is accepted: the staging fields are written, and the frame answered OK. -/
def State.stage (f : Staging → Staging) (data : Word) (s : State) : State :=
  (s.onPort fun p => { p with staging := f p.staging }).answer .ok data

/-- SERIAL HIGH (R155). -/
def execSerialHigh (value : BitVec 16) (s : State) : Host.Outcome State Fault Refusal :=
  done (takeFrame (State.stage (fun g => { g with serial := value ++ g.serial.extractLsb' 0 16 }) value) s)

/-- SERIAL LOW (R155). -/
def execSerialLow (value : BitVec 16) (s : State) : Host.Outcome State Fault Refusal :=
  done (takeFrame (State.stage (fun g => { g with serial := g.serial.extractLsb' 16 16 ++ value }) value) s)

/-- STAGE VALUE (R154). -/
def execStageValue (value : BitVec 16) (s : State) : Host.Outcome State Fault Refusal :=
  done (takeFrame (State.stage (fun g => { g with value := value }) value) s)

/-- STAGE EXPIRY (R154). -/
def execStageExpiry (value : BitVec 16) (s : State) : Host.Outcome State Fault Refusal :=
  done (takeFrame (State.stage (fun g => { g with expiry := value }) value) s)

/-- STAGE CLASS (R154, R182): refused RANGE for an unknown class code. -/
def execStageClass (operand : BitVec 20) (s : State) : Host.Outcome State Fault Refusal :=
  done (takeFrame (fun s =>
    match classOperand operand with
    | none => s.answer .range 0
    | some c => s.stage (fun g => { g with cls := c }) (operand.setWidth 16)) s)

/-- STAGE SLOT (R154): refused RANGE above 8,191. -/
def execStageSlot (operand : BitVec 20) (s : State) : Host.Outcome State Fault Refusal :=
  done (takeFrame (fun s =>
    match slotOperand operand with
    | none => s.answer .range 0
    | some x => s.stage (fun g => { g with slot := x }) (operand.setWidth 16)) s)

/-- STAGE TARIFF A (R154). -/
def execStageTariffA (zone : BitVec 4) (band : BitVec 2) (initialCharge : BitVec 14) (s : State) :
    Host.Outcome State Fault Refusal :=
  done (takeFrame
    (State.stage (fun g => { g with zone := zone, band := band, initialCharge := initialCharge }) 0) s)

/-- STAGE TARIFF B (R154). -/
def execStageTariffB (value : BitVec 16) (s : State) : Host.Outcome State Fault Refusal :=
  done (takeFrame (State.stage (fun g => { g with interval := value }) value) s)

/-- STAGE TARIFF C (R154). -/
def execStageTariffC (standardRate concessionRate : BitVec 10) (s : State) :
    Host.Outcome State Fault Refusal :=
  done (takeFrame
    (State.stage (fun g => { g with standardRate := standardRate, concessionRate := concessionRate }) 0) s)

end Sys2Proof.Machine
end

