-- ==== Sys2Proof/Machine/Power.lean ====
section
/-!
DEFINITION. The supply and the resets: the pin reset and power-on with the tearing of a store step, PWRLOW,
the soft reset and its drain, and the start-up (09; R10 to R12, R129, R143).
-/

namespace Sys2Proof.Machine

/-! ### Tearing (R10 to R12, R129) -/

/-- How far a step had come when a reset cut it, running (log 11). -/
def FlightStep.cutAt (step : FlightStep) (cut : Cut) : Progress :=
  if cut.leftBlank then step.clip (.erased cut.granule)
  else if step.target.isSome then .programming
  else .erasing cut.granule

/-- What a step cut short in its verify leaves: its granule blank or bad as `cut` says, since the manual gives no
third outcome of a cut (R10 to R12; log 11). -/
def FlightStep.torn (step : FlightStep) (cut : Cut) (r : Record) : Record :=
  match step.target with
  | some g => r.unset g cut.leftBlank
  | none => r.erasedTo cut.granule cut.leftBlank

/-- The step in flight is torn; a read in flight leaves the array as it is (R129). A suspended step is cut where it
stands, a running one no earlier than it is known to have come. -/
def State.tear (cut : Cut) (s : State) : State :=
  match s.engine.flight with
  | none => s
  | some f =>
    let p := if s.engine.suspended then f.progress else f.step.reached f.progress (f.step.cutAt cut)
    s.onRecord f.entry.slot fun r =>
      match p with
      | .verifying _ => f.step.torn cut r
      | q => f.step.cells q r

/-! ### The resets of volatile state (R177, R179) -/

/-- Every piece of volatile state at its reset value; the array, the pins and the waiting commands stay, and the
model's own count of suspensions. -/
def State.clearVolatile (s : State) : State :=
  { State.reset with store := s.store, pins := s.pins, moments := s.moments, pending := s.pending }

/-- A power-on or RESETN reset begins, or the supply fails (R177), with the pins as `change` leaves them. -/
def State.pinReset (cut : Cut) (change : Pins → Pins) (s : State) : State :=
  (s.tear cut).clearVolatile.onPins change

/-- The pins change while a reset lasts: if neither reset then lasts any longer, the start-up begins (R177,
R181). -/
def State.leaveReset (change : Pins → Pins) (s : State) : State :=
  let t := s.onPins change
  if t.pins.released then t.startUp else t

/-! ### The soft reset (R172, R178, R179) -/

/-- The soft-reset drain begins (R178): mode DRAINING, and every line stopped as DISABLE LINE stops it. -/
def State.beginDrain (s : State) : State :=
  allLines.foldl (fun t l => t.disableLine l) (s.onPort fun p => { p with mode := .draining })

/-- Whether the drain has ended: no queue entry, waiting or in flight, and no claim in flight or held
(R178). -/
def State.drained (s : State) : Bool :=
  decide (s.port.mode = .draining) && decide (s.engine.waiting = []) && s.engine.flight.isNone &&
  decide (s.dir.claims = [])

/-- Entry to IN RESET (R179): volatile state is reset, the mode is IN RESET, and the reply-owner mark and
the transfer under way are kept (R149, log 25). -/
def State.enterInReset (s : State) : State :=
  s.clearVolatile.onPort fun p =>
    { p with mode := .inReset, ownerMark := s.port.ownerMark, transfer := s.port.transfer }

/-! ### PWRLOW (R175, R176) -/

/-- PWRLOW becomes asserted (R175): every position with a live claim queues a checkpoint settlement. -/
def State.pwrlowAsserted (s : State) : State :=
  forPositions allPositions State.checkpoint (s.onPins fun p => { p with pwrlow := true })

/-! ### Commands -/

/-- POWER ON (R177): the supply rises; the part is held in reset until the supply is valid and RESETN
deasserted. -/
def execPowerOn (cut : Cut) (s : State) : Host.Outcome State Fault Refusal :=
  done (s.pinReset cut fun p => { p with supply := .rising })

/-- POWER FAILURE (R177, R129). -/
def execPowerFailure (cut : Cut) (s : State) : Host.Outcome State Fault Refusal :=
  done (s.pinReset cut fun p => { p with supply := .absent })

/-- RESETN ASSERTED (R177). Without supply no reset begins, and the level is what the supply will find
(log 23). -/
def execResetnAsserted (cut : Cut) (s : State) : Host.Outcome State Fault Refusal :=
  done (if s.pins.supply = .absent then s.onPins fun p => { p with resetn := true }
    else s.pinReset cut fun p => { p with resetn := true })

/-- RESETN DEASSERTED (R177, R181): with the supply valid the reset ends and the start-up begins; else the level
alone changes (log 23). A RESETN that is not asserted is not deasserted (log 6). -/
def execResetnDeasserted (s : State) : Host.Outcome State Fault Refusal :=
  done (if s.pins.resetn then s.leaveReset fun p => { p with resetn := false } else s)

/-- SUPPLY VALID (R177, R181): a rising supply becomes valid; with RESETN deasserted the power-on reset ends and the
start-up begins, and else the reset lasts until RESETN is deasserted (log 23). A supply that is not rising does not
become valid (log 6). -/
def execSupplyValid (s : State) : Host.Outcome State Fault Refusal :=
  done (if s.pins.supply = .rising then s.leaveReset fun p => { p with supply := .valid } else s)

/-- PWRLOW ASSERTED (R175). An input that is asserted already does not become asserted (log 6). -/
def execPwrlowAsserted (s : State) : Host.Outcome State Fault Refusal :=
  done (if s.pins.pwrlow then s else s.pwrlowAsserted)

/-- PWRLOW DEASSERTED (R176): no settlement is made. -/
def execPwrlowDeasserted (s : State) : Host.Outcome State Fault Refusal :=
  done (s.onPins fun p => { p with pwrlow := false })

/-- RESET ENTER (R172, R178). -/
def execResetEnter (s : State) : Host.Outcome State Fault Refusal :=
  done (takeFrame (whenRunning fun s => s.beginDrain.answer .ok 0) s)

/-- The entry to IN RESET (R179): when the drain has ended; else the event does not occur (log 6). -/
def execEnterInReset (s : State) : Host.Outcome State Fault Refusal :=
  done (unlessReset (fun s => if s.drained then s.enterInReset else s) s)

/-- RESET LEAVE (R172). -/
def execResetLeave (s : State) : Host.Outcome State Fault Refusal :=
  done (takeFrame (fun s =>
    match s.port.mode with
    | .draining => s.answer .pending 0
    | .inReset => s.startUp.answer .ok 0
    | .running | .starting => s.answer .badState 0) s)

end Sys2Proof.Machine
end

