-- ==== Sys2Proof/Machine/Dispatch.lean ====
section
/-!
DEFINITION. The one table from a command to its meaning.
-/

namespace Sys2Proof.Machine

def exec (i : Instr) (s : State) : Host.Outcome State Fault Refusal :=
  match i with
  | .powerOn cut => Sys2Proof.Machine.execPowerOn cut s
  | .powerFailure cut => Sys2Proof.Machine.execPowerFailure cut s
  | .resetnAsserted cut => Sys2Proof.Machine.execResetnAsserted cut s
  | .resetnDeasserted => Sys2Proof.Machine.execResetnDeasserted s
  | .pwrlowAsserted => Sys2Proof.Machine.execPwrlowAsserted s
  | .pwrlowDeasserted => Sys2Proof.Machine.execPwrlowDeasserted s
  | .transferIgnored => Sys2Proof.Machine.execTransferIgnored s
  | .frameForOtherUnit => Sys2Proof.Machine.execFrameForOtherUnit s
  | .badKind => Sys2Proof.Machine.execBadKind s
  | .readStatus => Sys2Proof.Machine.execReadStatus s
  | .readBuffer => Sys2Proof.Machine.execReadBuffer s
  | .enableWrite => Sys2Proof.Machine.execEnableWrite s
  | .resetEnter => Sys2Proof.Machine.execResetEnter s
  | .enterInReset => Sys2Proof.Machine.execEnterInReset s
  | .resetLeave => Sys2Proof.Machine.execResetLeave s
  | .serialHigh value => Sys2Proof.Machine.execSerialHigh value s
  | .serialLow value => Sys2Proof.Machine.execSerialLow value s
  | .stageValue value => Sys2Proof.Machine.execStageValue value s
  | .stageExpiry value => Sys2Proof.Machine.execStageExpiry value s
  | .stageClass operand => Sys2Proof.Machine.execStageClass operand s
  | .stageSlot operand => Sys2Proof.Machine.execStageSlot operand s
  | .stageTariffA zone band initialCharge => Sys2Proof.Machine.execStageTariffA zone band initialCharge s
  | .stageTariffB value => Sys2Proof.Machine.execStageTariffB value s
  | .stageTariffC standardRate concessionRate => Sys2Proof.Machine.execStageTariffC standardRate concessionRate s
  | .issue => Sys2Proof.Machine.execIssue s
  | .credit => Sys2Proof.Machine.execCredit s
  | .setExpiry => Sys2Proof.Machine.execSetExpiry s
  | .block => Sys2Proof.Machine.execBlock s
  | .unblock => Sys2Proof.Machine.execUnblock s
  | .retire => Sys2Proof.Machine.execRetire s
  | .eraseSlot => Sys2Proof.Machine.execEraseSlot s
  | .queryCard => Sys2Proof.Machine.execQueryCard s
  | .querySlot => Sys2Proof.Machine.execQuerySlot s
  | .unlockRegion region => Sys2Proof.Machine.execUnlockRegion region s
  | .lockRegion region => Sys2Proof.Machine.execLockRegion region s
  | .writeTariff => Sys2Proof.Machine.execWriteTariff s
  | .barZone zone band => Sys2Proof.Machine.execBarZone zone band s
  | .writeBand minute band => Sys2Proof.Machine.execWriteBand minute band s
  | .clearBand minute => Sys2Proof.Machine.execClearBand minute s
  | .setDay day => Sys2Proof.Machine.execSetDay day s
  | .setTime second => Sys2Proof.Machine.execSetTime second s
  | .collectTakings => Sys2Proof.Machine.execCollectTakings s
  | .configureLinePeriod line period => Sys2Proof.Machine.execConfigureLinePeriod line period s
  | .configureLineTiming line pitch => Sys2Proof.Machine.execConfigureLineTiming line pitch s
  | .enableLine line => Sys2Proof.Machine.execEnableLine line s
  | .disableLine line => Sys2Proof.Machine.execDisableLine line s
  | .setSilentLimit limit => Sys2Proof.Machine.execSetSilentLimit limit s
  | .setGrace window => Sys2Proof.Machine.execSetGrace window s
  | .setCheckpoint step => Sys2Proof.Machine.execSetCheckpoint step s
  | .enablePosition position => Sys2Proof.Machine.execEnablePosition position s
  | .disablePosition position => Sys2Proof.Machine.execDisablePosition position s
  | .releasePosition position => Sys2Proof.Machine.execReleasePosition position s
  | .readPosition position => Sys2Proof.Machine.execReadPosition position s
  | .readAttention => Sys2Proof.Machine.execReadAttention s
  | .clearAttention mask => Sys2Proof.Machine.execClearAttention mask s
  | .setAttentionMode pulse mask => Sys2Proof.Machine.execSetAttentionMode pulse mask s
  | .readAttentionDetail => Sys2Proof.Machine.execReadAttentionDetail s
  | .attnPulseEnd => Sys2Proof.Machine.execAttnPulseEnd s
  | .cycleStart line => Sys2Proof.Machine.execCycleStart line s
  | .cycleOpenFrameEnd line => Sys2Proof.Machine.execCycleOpenFrameEnd line s
  | .transmissionStart line time => Sys2Proof.Machine.execTransmissionStart line time s
  | .transmissionEnd line time bits => Sys2Proof.Machine.execTransmissionEnd line time bits s
  | .slotWindowClose line => Sys2Proof.Machine.execSlotWindowClose line s
  | .intervalExpiry position => Sys2Proof.Machine.execIntervalExpiry position s
  | .graceTimerExpiry position => Sys2Proof.Machine.execGraceTimerExpiry position s
  | .clockStep => Sys2Proof.Machine.execClockStep s
  | .lineFaultEvent line => Sys2Proof.Machine.execLineFaultEvent line s
  | .storeReadComplete change => Sys2Proof.Machine.execStoreReadComplete change s
  | .entryStart => Sys2Proof.Machine.execEntryStart s
  | .valueWriteComplete left => Sys2Proof.Machine.execValueWriteComplete left s
  | .issueStepComplete left => Sys2Proof.Machine.execIssueStepComplete left s
  | .eraseComplete left => Sys2Proof.Machine.execEraseComplete left s
  | .supplyValid => Sys2Proof.Machine.execSupplyValid s
  | .transferStart => Sys2Proof.Machine.execTransferStart s

end Sys2Proof.Machine
end

