-- ==== Sys2Proof/Safety.lean ====
section
/-!
DEFINITION. What a safe run of the TD48 keeps: the canonical form of the array, the legal ranges of the
settings, the clock, the schedule and the buffer, the unity of the write queue, and what a position and its
order hold in each state. Also the conditions under which a frame is acted on, in the claims' terms.
-/

namespace Sys2Proof.Machine

/-! ### When a frame is acted on -/

/-- The part acts on a frame addressed to it: no reset lasts, and no answer is being waited for, or an unsent
one is delivered by the frame's own transfer (R151, R177). -/
abbrev State.listens (s : State) : Prop :=
  s.pins.released = true ∧ (s.port.result = .none ∨ s.port.delivers = true)

/-- The part acts on a frame in RUNNING. -/
abbrev State.serves (s : State) : Prop := s.listens ∧ s.port.mode = .running

/-- The part acts on a latched action: RUNNING with the latch set. -/
abbrev State.armed (s : State) : Prop := s.serves ∧ s.port.latch = true

/-- The port after a frame that was answered at once: the transfer is over, the mark is set, no answer is
waited for, and the held reply is the answer. -/
def Port.answered (code : ReplyCode) (data : Word) (p : Port) : Port :=
  { p with
    transfer := none, ownerMark := true, result := .none, reply := { code := code, data := data } }

/-- The port after a latched action that was answered at once: its latch is also clear (R156). -/
def Port.answeredLatched (code : ReplyCode) (data : Word) (p : Port) : Port :=
  { p.answered code data with latch := false }

/-- The state after a frame that was answered at once and changed nothing but the reply. -/
def State.replied (code : ReplyCode) (data : Word) (s : State) : State :=
  { s with port := s.port.answered code data }

/-- The state after a latched action that was answered at once and changed nothing but the reply and the
latch. -/
def State.repliedLatched (code : ReplyCode) (data : Word) (s : State) : State :=
  { s with port := s.port.answeredLatched code data }

/-- The state after a whole transfer whose frame was passed over: an answer may have been delivered, the mark
is set, and nothing else changes (R149, R151). -/
def State.passed (s : State) : State :=
  { s with port := { s.port with transfer := none, ownerMark := true } }

/-- The commands that are frames acted on by kind: every host frame, and a frame of an unknown kind. -/
def frameTaken (c : Instr) : Bool :=
  c.kindAndOperand.isSome || decide (c = .badKind)

/-- The kinds that every mode acts on (R157); an unknown kind is answered BAD KIND in every mode. -/
def servedInEveryMode : Instr → Bool
  | .readStatus | .readBuffer | .badKind | .resetLeave => true
  | .serialHigh _ | .serialLow _ | .stageValue _ | .stageExpiry _ | .stageClass _ | .stageSlot _ => true
  | .stageTariffA _ _ _ | .stageTariffB _ | .stageTariffC _ _ => true
  | .writeTariff | .barZone _ _ | .writeBand _ _ | .clearBand _ | .setDay _ | .setTime _ => true
  | .configureLinePeriod _ _ | .configureLineTiming _ _ => true
  | .setSilentLimit _ | .setGrace _ | .setCheckpoint _ => true
  | _ => false

/-- The latched actions (R156). -/
def needsLatch : Instr → Bool
  | .issue | .credit | .block | .unblock | .setExpiry | .retire | .eraseSlot => true
  | .unlockRegion _ | .lockRegion _ => true
  | _ => false

/-- The commands that the supply, RESETN and PWRLOW give, which alone act while a reset lasts (R177). -/
def fromPins : Instr → Bool
  | .powerOn _ | .powerFailure _ | .resetnAsserted _ | .resetnDeasserted | .supplyValid => true
  | .pwrlowAsserted | .pwrlowDeasserted => true
  | _ => false

/-- The commands that reset the volatile state: the pin resets, a failing supply, and the entry to IN RESET
(R177, R179). -/
def resets : Instr → Bool
  | .powerOn _ | .powerFailure _ | .resetnAsserted _ | .enterInReset => true
  | _ => false

/-! ### What a command leaves as it was -/

/-- The state a frame acts on: its transfer is over, no answer is waited for, and the mark is set (R149,
R151). -/
def State.taken (s : State) : State :=
  { s with port := { s.port with transfer := none, ownerMark := true, result := .none } }

/-- The state with a line's controller replaced. -/
def State.withLine (l : LineIx) (c : Line) (s : State) : State :=
  { s with lines := s.lines.set l.val c l.isLt }

/-- The state with a position's context replaced. -/
def State.withCtx (p : Pos) (c : Position) (s : State) : State :=
  { s with positions := s.positions.set p.val c p.isLt }

/-- An entry but for who claims it. -/
def DirEntry.unclaimed (e : DirEntry) : DirEntry := { e with claimedBy := none }

/-- A claim in flight for whose record a queue entry has appeared (R33). -/
def FlightClaim.marked (c : FlightClaim) : FlightClaim := { c with appeared := true }

/-- Images have been queued and claims released for the slots `settled` only: the calls and the lines aside,
nothing else has changed. No read is asked for, and the step in flight goes on; waiting entries of other slots
stand as they were, in their order; claims in flight are marked at most; an entry of the directory changes in its
claimed-by only, and one of another slot not at all; of the tariff the takings alone may change. -/
structure State.onlyQueues (s t : State) (settled : List Slot) : Prop where
  store : t.store = s.store
  settings : t.settings = s.settings
  pins : t.pins = s.pins
  moments : t.moments = s.moments
  pending : t.pending = s.pending
  tariff : t.tariff = { s.tariff with takings := t.tariff.takings }
  engine : t.engine = { s.engine with waiting := t.engine.waiting }
  waiting : t.engine.waiting.filter (fun e => decide (e.slot ∉ settled)) =
    s.engine.waiting.filter fun e => decide (e.slot ∉ settled)
  dir : t.dir = { s.dir with entries := t.dir.entries, claims := t.dir.claims }
  claims : t.dir.claims.map FlightClaim.marked = s.dir.claims.map FlightClaim.marked
  entries : t.dir.entries.map DirEntry.unclaimed = s.dir.entries.map DirEntry.unclaimed
  claimed : t.dir.entries.filter (fun e => decide (e.slot ∉ settled)) =
    s.dir.entries.filter fun e => decide (e.slot ∉ settled)
  mask : t.attention.mask = s.attention.mask
  mode : t.attention.mode = s.attention.mode

/-- Claims of the slots `settled` have been settled and released, and nothing has been counted. -/
structure State.onlySettles (s t : State) (settled : List Slot) : Prop extends State.onlyQueues s t settled where
  takings : t.tariff.takings = s.tariff.takings

/-- Of the port nothing has changed but a mark on the action that is waiting for a read (R33, R159). -/
def Port.onlyMarked (p q : Port) : Prop :=
  q = { p with result := q.result } ∧
  (q.result = p.result ∨ ∃ a, p.result = .working a ∧ q.result = .working { a with appeared := true })

/-- The slot of the card that a position holds, in a list. -/
def Position.heldSlots (c : Position) : List Slot := (c.claim.map Claim.slot).toList

/-- A waiting VALUE entry carries an image for a record. -/
def State.queues (s : State) (x : Slot) (i : Image) : Prop :=
  ∃ e ∈ s.engine.waiting, e.slot = x ∧ e.work = .value i

/-- No entry of the directory for a slot is claimed. -/
def State.free (s : State) (x : Slot) : Prop := ∀ e ∈ s.dir.entries, e.slot = x → e.claimedBy = none

/-! ### Ranges -/

/-- Line settings within the ranges of R39, whose windows fit the period (R43, R44). -/
def Timing.legal (t : Timing) : Bool :=
  decide (40 ≤ t.period ∧ t.period ≤ 250 ∧ t.offset ≤ 1000 ∧ 25 ≤ t.pitch ∧ t.pitch ≤ 255 ∧
    t.offset + 8 * t.pitch ≤ 10 * t.period)

/-- Every line's held and cycle settings are legal. -/
def State.linesLegal (s : State) : Prop := ∀ l, (s.line l).held.legal ∧ (s.line l).cycle.legal

/-- The shared settings lie in their ranges (R54, R87, R99). -/
def Settings.legal (g : Settings) : Bool :=
  decide (2 ≤ g.silentLimit ∧ g.silentLimit ≤ 15 ∧ g.graceWindow ≤ 30 ∧ 1 ≤ g.checkpoint ∧
    g.checkpoint ≤ 64)

/-- The readout buffer holds at most 32 words, and its pointer lies within them (R170). -/
def Port.bufferLegal (p : Port) : Bool :=
  decide (p.buffer.length ≤ 32 ∧ p.pointer ≤ p.buffer.length)

/-- The clock, the schedule and the takings lie in their ranges (R118, R122, R126): start minutes strictly
rise, and there are at most eight entries. -/
def Tariff.legal (t : Tariff) : Prop :=
  t.second < 86400 ∧ t.part ≤ 9 ∧ t.schedule.length ≤ Config.schedulePlaces ∧
  t.schedule.Pairwise (fun a b => a.1 < b.1) ∧ (∀ e ∈ t.schedule, e.1 ≤ 1439) ∧
  ∀ i : Fin 16, t.takings[i] ≤ Config.maxTakings

/-- The pulse count stops at 7; in LEVEL mode there are no pulses; a counted pulse waits only while another
is driven (R174). -/
def Attention.legal (a : Attention) : Prop :=
  a.pulses ≤ 7 ∧ (a.mode = .level → a.pulses = 0 ∧ a.driving = false) ∧
  (0 < a.pulses → a.driving = true)

/-! ### The write queue -/

/-- The step of a flight is one of its entry's kind (R137, R141, R142). -/
def Flight.matched (f : Flight) : Bool :=
  match f.step, f.entry.work with
  | .writeValue _ _, .value _ => true
  | .issueErase, .issue _ _ | .issueIdentity, .issue _ _ | .issueCopyA, .issue _ _ => true
  | .erase, .retire | .erase, .eraseSlot => true
  | _, _ => false

/-- The slots of the waiting VALUE entries, in the queue's order. -/
def Engine.waitingValues (e : Engine) : List Slot := (e.waiting.filter QueueEntry.isValue).map QueueEntry.slot

/-- The queue holds at most one waiting VALUE entry per record, its attempts stop at 2, the flight's step is of
its entry's kind and stands at a part that it has, and the corrected-read counter saturates (R131, R133, R135,
R144). -/
def Engine.sound (e : Engine) : Prop :=
  e.waitingValues.Nodup ∧ (∀ w ∈ e.waiting, w.attempts ≤ 2) ∧
  (∀ f ∈ e.flight, f.matched = true ∧ f.entry.attempts ≤ 2 ∧ f.step.clip f.progress = f.progress) ∧
  e.corrected ≤ 65535

/-! ### The positions -/

/-- Every position's order is the one its state and items give (R58, R82). -/
def State.ordersCurrent (s : State) : Prop := ∀ p, (s.ctx p).order = (s.ctx p).currentOrder

/-- What the items of a call context keep (R81, R98, R99): the amount stops at 255; the grace timer runs in
GRACE only; the interval timer runs in METERED on timed calls only. -/
def Call.sound (state : PosState) (k : Call) : Prop :=
  k.amount ≤ Config.maxAmount ∧
  (state = .grace → k.graceTimer.isSome = true ∧ k.intervalTimer = none) ∧
  (state = .metered →
    k.graceTimer = none ∧ k.amount = 0 ∧ (k.intervalTimer.isSome = true ↔ k.zone ≠ 15))

/-- What a position keeps in every state (R57, R81, R86): a call context in METERED and GRACE and in no other
state; a claim in METERED, and none in OFF and LOST; the claim items 0 without a claim; and a working
balance that never exceeds the claim balance. -/
def Position.sound (c : Position) : Prop :=
  (c.call.isSome = true ↔ c.state = .metered ∨ c.state = .grace) ∧
  (c.state = .metered → c.claim.isSome = true) ∧
  (c.state = .off ∨ c.state = .lost → c.claim = none) ∧
  (c.claim = none → c.claimBalance = 0 ∧ c.working = 0 ∧ c.debited = 0) ∧
  c.working ≤ c.claimBalance ∧ c.silentCount ≤ 15 ∧ ∀ k ∈ c.call, k.sound c.state

/-- Every position is sound. -/
def State.positionsSound (s : State) : Prop := ∀ p, (s.ctx p).sound

/-- A position that is not OFF stands on a driven line, or is LOST on a FAULTED one (R40 to R42, R77). -/
def State.positionsServed (s : State) : Prop :=
  ∀ p, (s.ctx p).state ≠ .off → (s.line (lineOf p)).driven = true ∨
    ((s.line (lineOf p)).state = .faulted ∧ (s.ctx p).state = .lost)

/-- The current band is the one the schedule gives for the time of day (R120, R121). -/
def Tariff.bandCurrent (t : Tariff) : Prop := t.band = bandAt t.schedule t.second

/-! ### A station report at the close of its window -/

/-- A valid report of `bits` is handed on when slot `k`'s window of line `l` closes: no reset lasts, the line is
RUNNING in that window, and the window's class is VALID. A later transmission may be being received. -/
structure State.hears (s : State) (l : LineIx) (k : Fin 8) (bits : BitVec 38) : Prop where
  released : s.pins.released = true
  state : (s.line l).state = .running
  phase : (s.line l).phase = .window k
  report : classify (s.line l).cycle (posOf l k) k (s.line l).record = (.valid, some bits)
  orders : s.ordersCurrent

/-- A line after the close of slot k's window (R48, R50): the next window opens with no start noted but that of a
transmission still being received which belongs to it. -/
def Line.closed (k : Fin 8) (l : Line) : Line :=
  if h : k.val + 1 < 8 then { l with
    phase := .window ⟨k.val + 1, h⟩
    record := match l.receiver.filter fun r => decide (r.slot = some ⟨k.val + 1, h⟩) with
      | some r => .one { start := r.start, finish := none }
      | none => .noStart }
  else { l with phase := .over, record := .noStart }

/-- A position with what every valid report of `bits` sets: its class, the silent count, the hook, and the high half
that serial assembly keeps (R51, R53, R55, R59). -/
def Position.heard (bits : BitVec 38) (c : Position) : Position :=
  { c with
    lastClass := .valid, silentCount := 0, lastHook := if bits.getLsbD 31 then .off else .on
    highHalf := if bits.getLsbD 30 && bits.getLsbD 29 then some (bits.extractLsb' 13 16) else none }

/-- The serial that a report of `bits` completes: a LOW half of a card present, with a high half held (R59). -/
def Position.completes (bits : BitVec 38) (c : Position) : Option Serial :=
  if bits.getLsbD 30 && !bits.getLsbD 29 then c.highHalf.map fun h => h ++ bits.extractLsb' 13 16 else none

/-- The close of slot `k`'s window leaves the state `t`, but for the line, which goes on to its next window. -/
def State.closes (s : State) (l : LineIx) (k : Fin 8) (t : State) : Prop :=
  exec (.slotWindowClose l) s = .next (t.withLine l ((s.line l).closed k))

/-- The card that position `p` holds has been settled and released, and the position left as `c`; nothing else has
changed (R36, R69, R71). -/
structure State.settles (s t : State) (p : Pos) (held : Claim) (c : Position) : Prop where
  only : s.onlySettles t [held.slot]
  lines : t.lines = s.lines
  positions : t.positions = (s.withCtx p c).positions
  port : s.port.onlyMarked t.port
  attention : t.attention = s.attention
  settled : t.queues held.slot (held.settlement (s.ctx p).working false)
  free : t.free held.slot

/-- A position without a card: no claim, and its items 0 (R69). -/
def Position.emptied (c : Position) : Position :=
  { c with claim := none, claimBalance := 0, working := 0, debited := 0 }

/-- A position that names no refused card (R70). -/
def Position.unrefused (c : Position) : Position :=
  { c with refusedSerial := none, refusedVerdict := .none, refusedBalance := 0 }

/-- A position whose outstanding claim, if there is one, is abandoned (R67). -/
def Position.abandoned (c : Position) : Position :=
  { c with outstanding := c.outstanding.map fun o => { o with abandoned := true } }

/-- An order that shows a verdict and a balance, without a warning. -/
def Order.plain (v : Verdict) (shown : Nat) : Order := { verdict := v, warn := false, shown := shown }

/-- The order that shows a refused card: its verdict, with the balance where it was EMPTY or LOW (R58). -/
def Position.showsRefusal (c : Position) : Order :=
  .plain c.refusedVerdict
    (if c.refusedVerdict = .refusedLow ∨ c.refusedVerdict = .refusedEmpty then c.refusedBalance else 0)

/-- The attention unit once the entry in force for a zone has been read: TARIFF FAULT names an entry whose check
fails (R116). -/
def State.attentionAfterRead (zone : BitVec 4) (s : State) : Attention :=
  if (s.tariff.entry zone s.tariff.band).verifies then s.attention
  else (s.raiseTariffFault zone s.tariff.band).attention

/-! ### Payments -/

/-- The account of a card on a call: its balance, D, and the balance that the newest checkpoint settlement has taken,
if one was made (R86, R87). -/
structure Account where
  working : Nat
  debited : Nat
  settled : Option Nat
  deriving DecidableEq, Repr

/-- One debit, with the checkpoint test of a step (R86, R87). A debit of 0 makes no test. -/
def Account.debit (service : Bool) (step units : Nat) (a : Account) : Account :=
  let w := if service then a.working else a.working - units
  if 0 < units ∧ step ≤ a.debited + units then { working := w, debited := 0, settled := some w }
  else { a with working := w, debited := a.debited + units }

/-- The account of a card of a class after debits of `charges` in turn, from a balance and D, with the checkpoint step
in force (R86, R87). -/
def State.account (s : State) (cls : CardClass) (charges : List Nat) (working debited : Nat) : Account :=
  charges.foldl
    (fun a units => a.debit (decide (cls = .service)) (if s.pins.pwrlow then 1 else s.settings.checkpoint) units)
    { working := working, debited := debited, settled := none }

/-- `charges` have been debited in turn from the card of position `p` on a call in a zone, with the account `a` after
them, and the position left as `c`; nothing else has changed. The takings counter saturates, TAKINGS FULL is raised
where it then stands at its greatest value, and the newest checkpoint settlement waits in the queue (R86, R87, R126). -/
structure State.pays (s t : State) (p : Pos) (held : Claim) (zone : BitVec 4) (charges : List Nat) (a : Account)
    (c : Position) : Prop where
  only : s.onlyQueues t [held.slot]
  lines : t.lines = s.lines
  positions : t.positions = (s.withCtx p c).positions
  entries : t.dir.entries = s.dir.entries
  port : s.port.onlyMarked t.port
  takings : ∀ i : Fin 16, t.tariff.takings[i] =
    if i = counterIndex held.cls zone then min 4294967295 (s.tariff.takings[i] + charges.sum)
    else s.tariff.takings[i]
  attention : t.attention =
    if 0 < charges.sum ∧ 4294967295 ≤ s.tariff.takings[counterIndex held.cls zone] + charges.sum
    then s.raiseTakingsFull.attention else s.attention
  settled : ∀ w ∈ a.settled, t.queues held.slot (held.settlement w false)
  unsettled : a.settled = none → t.engine = s.engine ∧ t.dir = s.dir ∧ t.port = s.port

/-! ### The directory -/

/-- The slots of the entries that erase, waiting and in flight. -/
def Engine.erasing (e : Engine) : List Slot :=
  ((e.waiting ++ (e.flight.map Flight.entry).toList).filter QueueEntry.isErase).map QueueEntry.slot

/-- The reads that the rebuild has asked for, in flight and listed. -/
def Engine.rebuildRequests (e : Engine) : List ReadRequest :=
  (e.reading.toList ++ e.readList).filter fun r => decide (r.who = .rebuild)

/-- The serial that the rebuild has read of its slot. -/
def RebuildStage.serial : RebuildStage → Option Serial
  | .identity => none
  | .copyA i => some i.serial
  | .copyB i _ _ => some i.serial

/-- The slots that the directory has placed: indexed, free, or being erased. -/
def State.placed (s : State) : List Slot :=
  s.dir.entries.map DirEntry.slot ++ s.dir.free ++ s.engine.erasing

/-- Nothing is in flight, listed or waiting. -/
def Engine.idle (e : Engine) : Prop :=
  e.reading = none ∧ e.readList = [] ∧ e.flight = none ∧ e.waiting = []

/-- What the directory keeps (R22, R25, R28, R36): no slot stands twice among the indexed, the free and the
erasing; no serial is indexed twice; a rebuild runs in STARTING only, with at most its one read asked for, and has
placed lower slots only; no read is listed and no step suspended while none is in flight; before a start-up the
directory is empty, the engine idle and no line driven; and the record of every position's claim is claimed by that
position. -/
structure State.directorySound (s : State) : Prop where
  slots : s.placed.Nodup
  serials : (s.dir.entries.map DirEntry.serial).Nodup
  rebuild : ∀ r ∈ s.dir.rebuild, s.port.mode = .starting ∧ s.pins.released = true ∧
    (∀ x ∈ s.placed, x < r.slot) ∧ ∀ x ∈ r.stage.serial, x ∉ s.dir.entries.map DirEntry.serial
  requests : s.engine.rebuildRequests = [] ∨
    s.engine.rebuildRequests = (s.dir.rebuild.map Rebuild.request).toList
  served : s.engine.reading = none → s.engine.readList = [] ∧ s.engine.suspended = false
  asleep : s.pins.released = false ∨ s.port.mode = .inReset →
    s.placed = [] ∧ s.dir.rebuild = none ∧ s.dir.ready = false ∧ s.engine.idle ∧ ∀ l, (s.line l).driven = false
  claims : ∀ p, ∀ k ∈ (s.ctx p).claim, ∃ e ∈ s.dir.entries, e.slot = k.slot ∧ e.claimedBy = some p

/-- The admission law (R136): the entries of the queue and the live claims without a waiting VALUE entry never
exceed the 96 places. Where they fill them with nothing in flight, the entry to start next is not one whose start
would add to them, a VALUE entry of a claimed record. -/
def State.queueBounded (s : State) : Prop :=
  s.queueCount + s.unqueuedClaims ≤ Config.queuePlaces ∧
  (s.engine.flight = none → s.engine.waiting.length + s.unqueuedClaims = Config.queuePlaces →
    ∀ e ∈ s.engine.waiting.head?, e.isValue = true → s.free e.slot)

/-- A state of a run: every law above. -/
structure State.Safe (s : State) : Prop where
  store : storeWf s.store = true
  lines : s.linesLegal
  settings : s.settings.legal = true
  buffer : s.port.bufferLegal = true
  tariff : s.tariff.legal
  band : s.tariff.bandCurrent
  attention : s.attention.legal
  engine : s.engine.sound
  orders : s.ordersCurrent
  positions : s.positionsSound
  served : s.positionsServed
  directory : s.directorySound
  queue : s.queueBounded

end Sys2Proof.Machine
end

