-- ==== Sys2Proof/Certificates/Slice0/Obligations.lean ====
section
/-!
DEFINITION. The statements for the provers. Each docstring names the sentence of the spec, or the choice of the
model, that it formalises. A command's statement gives the whole next state as an equation where the effect is
closed, and else says what the next state holds together with everything that it leaves unchanged.
-/

open Sys2Proof Sys2Proof.Machine

/-! ### Commands, the queue and frames -/

/-- A step takes the command at the front of the queue (the block's interface; no rule of the spec). -/
def Obligations.StepTakesTheFront : Prop :=
  ∀ (c : Instr) (rest : List Instr) (s : State),
    s.pending = c :: rest → step s = exec c { s with pending := rest }

/-- On an empty queue a tenth of a second passes: the part of the second and the running timers count, and
nothing else changes; while a reset lasts nothing changes. The model's choice (log 5). -/
def Obligations.StepOnEmptyQueue : Prop :=
  ∀ s : State, s.pending = [] →
    (s.pins.released = false → step s = .next s) ∧
    (s.pins.released = true → s.ordersCurrent →
      step s = .next { s with
        tariff := { s.tariff with part := min 9 (s.tariff.part + 1) }
        positions := s.positions.map fun c => { c with call := c.call.map Call.tick } })

/-- Every command completes in every state, and leaves the commands that wait: each step of the table is whole and
indivisible, and none is said to stop the part (95_what_each_step_holds.md). That a command whose event cannot occur
in a state leaves the state as it is, is the model's choice (log 6). -/
def Obligations.EveryCommandCompletes : Prop :=
  ∀ (c : Instr) (s : State), ∃ t, exec c s = .next t ∧ t.pending = s.pending

/-- A frame decodes to the command it was made of at the part it addresses, and to another unit's frame at every
other part (11.2, 8.1). A frame with any one bit wrong is ignored by every part, whatever it was (8.1: the check
covers the first 28 bits). -/
def Obligations.FramesDecodeToTheirCommands : Prop :=
  (∀ (address straps : BitVec 2) (i : Instr) (f : BitVec 32), encodeFrame address i = some f →
     decodeFrame straps f = if address = straps then i else .frameForOtherUnit) ∧
  (∀ (address straps : BitVec 2) (kind : BitVec 6) (op : BitVec 20) (n : Nat), n < 32 →
     decodeFrame straps (frameOf address kind op ^^^ 1#32 <<< n) = .transferIgnored)

/-! ### When a frame is acted on -/

/-- While an answer is being waited for, a frame addressed to the part is passed over, whatever it says: its
transfer ends, the mark is set, and nothing else changes (8.2). While a power-on or RESETN reset lasts, only the
supply, RESETN and PWRLOW act (9.3).
Outside RUNNING every kind that is not served in every mode is answered NOT READY, and changes nothing
except that a latched action clears the latch (8.6). A latched action acted on while the latch is clear is
answered NO WRITE ENABLE and changes nothing else (8.5). -/
def Obligations.FramesNotTakenOrRefused : Prop :=
  ((∀ (c : Instr) (s : State), frameTaken c = true → s.pins.released = true →
      s.port.result ≠ .none → s.port.delivers = false → exec c s = .next s.passed) ∧
   (∀ (c : Instr) (s : State), fromPins c = false → s.pins.released = false → exec c s = .next s)) ∧
  ((∀ (c : Instr) (s : State), frameTaken c = true → servedInEveryMode c = false → s.listens →
      s.port.mode ≠ .running →
      exec c s = .next (if needsLatch c then s.repliedLatched .notReady 0 else s.replied .notReady 0)) ∧
   (∀ (c : Instr) (s : State), needsLatch c = true → s.serves → s.port.latch = false →
      exec c s = .next (s.repliedLatched .noWriteEnable 0)))

/-! ### The station port -/

/-- What the start of a transfer notes, what an ignored transfer and another unit's frame change, and what SDO
shows at each clock (8.1, 8.2). A second start during a transfer does not occur, and leaves the state as it is (log 6). The fields of the reply that a transfer starting now shifts out: the six status
bits, code, data, and the check, with its two lowest bits inverted for BAD KIND (8.2, 8.3, 11.2).
READ STATUS in every mode, an unknown kind in every mode, and ENABLE WRITE in RUNNING (8.2, 8.3, 8.5). -/
def Obligations.TransfersRepliesAndStatus : Prop :=
  ((∀ s : State, s.pins.released = true →
      exec .transferStart s = .next (if s.port.transfer.isSome then s else
        { s with port := { s.port with transfer := some {
            owned := s.port.ownerMark, unsent := decide (s.port.result = .unsent)
            shifted := if s.port.ownerMark then some s.replyWord else none } } }) ∧
      exec .transferIgnored s = .next { s with port := { s.port with fe := true, transfer := none } } ∧
      exec .frameForOtherUnit s = .next { s with port := { s.port with
        result := if s.port.delivers then .none else s.port.result
        transfer := none, ownerMark := false } } ∧
      (s.port.transfer = none → ∀ n, s.sdo n = none) ∧
      ∀ t ∈ s.port.transfer, (t.shifted = none → ∀ n, s.sdo n = none) ∧
        ∀ w ∈ t.shifted, (∀ n, n < 32 → s.sdo n = some (w.getLsbD (31 - n))) ∧
          ∀ n, 32 ≤ n → s.sdo n = some true) ∧
   (∀ s : State,
      s.replyWord.getLsbD 31 = s.port.rs ∧ s.replyWord.getLsbD 30 = s.dir.ready ∧
      (s.replyWord.getLsbD 29 = true ↔
        ∃ f : Flag, s.attention.isSet f = true ∧ s.attention.mask.getLsbD f.bit = true) ∧
      s.replyWord.getLsbD 28 = s.port.fe ∧ s.replyWord.getLsbD 27 = s.pins.pwrlow ∧
      s.replyWord.getLsbD 26 = s.port.latch ∧
      s.replyWord.extractLsb' 20 6 = s.port.reply.code.code ∧ s.replyWord.extractLsb' 4 16 = s.port.reply.data ∧
      s.replyWord.extractLsb' 0 4 = crc4 (msbFirst (s.replyWord.extractLsb' 4 28)) ^^^
        (if s.port.reply.code = .badKind then 0b0011#4 else 0))) ∧
  (∀ s : State, s.listens →
     exec .badKind s = .next (s.replied .badKind 0) ∧
     exec .readStatus s = .next { s with port :=
       { s.port.answered .ok
           (BitVec.ofBool s.port.rs ++ BitVec.ofBool s.dir.ready ++ BitVec.ofBool s.attention.anyEnabled ++
             BitVec.ofBool s.port.fe ++ BitVec.ofBool s.pins.pwrlow ++ BitVec.ofBool s.port.latch ++
             s.port.mode.code ++ 0#1 ++
             BitVec.ofNat 7 (s.engine.waiting.length + (if s.engine.flight.isSome then 1 else 0))) with
         rs := false, fe := false } } ∧
     (s.port.mode = .running →
       exec .enableWrite s = .next { s with port := { s.port.answered .ok 0 with latch := true } }))

/-- R171: READ BUFFER in every mode: the word at the pointer, or the empty marker, of which a pass-over and an
ignored transfer take nothing. -/
def Obligations.ReadBufferWalksTheBuffer : Prop :=
  ∀ s : State, s.port.pointer ≤ s.port.buffer.length →
    (s.listens →
      (∀ h : s.port.pointer < s.port.buffer.length,
        exec .readBuffer s = .next { s with port :=
          { s.port.answered .ok s.port.buffer[s.port.pointer] with pointer := s.port.pointer + 1 } }) ∧
      (s.port.pointer = s.port.buffer.length → exec .readBuffer s = .next (s.replied .ok 0xFFF0#16))) ∧
    (s.pins.released = true → s.port.result ≠ .none → s.port.delivers = false →
      exec .readBuffer s = .next s.passed ∧ s.passed.port.pointer = s.port.pointer) ∧
    (s.pins.released = true → ∃ t, exec .transferIgnored s = .next t ∧
      t.port.pointer = s.port.pointer ∧ t.port.reply = s.port.reply)

/-- The nine parameter frames in every mode: each writes its own staging field and no other, answers the value
staged or 0, and needs and clears no latch; SERIAL HIGH and SERIAL LOW write one half each (8.4, 11.2). -/
def Obligations.ParameterFramesStage : Prop :=
  ∀ s : State, s.listens →
    (∀ v, exec (.serialHigh v) s = .next { s with port := { s.port.answered .ok v with
      staging := { s.port.staging with serial := v ++ s.port.staging.serial.extractLsb' 0 16 } } }) ∧
    (∀ v, exec (.serialLow v) s = .next { s with port := { s.port.answered .ok v with
      staging := { s.port.staging with serial := s.port.staging.serial.extractLsb' 16 16 ++ v } } }) ∧
    (∀ v, exec (.stageValue v) s = .next { s with port := { s.port.answered .ok v with
      staging := { s.port.staging with value := v } } }) ∧
    (∀ v, exec (.stageExpiry v) s = .next { s with port := { s.port.answered .ok v with
      staging := { s.port.staging with expiry := v } } }) ∧
    (∀ v, exec (.stageTariffB v) s = .next { s with port := { s.port.answered .ok v with
      staging := { s.port.staging with interval := v } } }) ∧
    (∀ z b c, exec (.stageTariffA z b c) s = .next { s with port := { s.port.answered .ok 0 with
      staging := { s.port.staging with zone := z, band := b, initialCharge := c } } }) ∧
    (∀ r q, exec (.stageTariffC r q) s = .next { s with port := { s.port.answered .ok 0 with
      staging := { s.port.staging with standardRate := r, concessionRate := q } } }) ∧
    (∀ c : CardClass, exec (.stageClass (c.code.setWidth 20)) s =
      .next { s with port := { s.port.answered .ok (c.code.setWidth 16) with
        staging := { s.port.staging with cls := c } } }) ∧
    (∀ op, 3 ≤ op.toNat → exec (.stageClass op) s = .next (s.replied .range 0)) ∧
    (∀ (op : BitVec 20) (h : op.toNat < 8192), exec (.stageSlot op) s =
      .next { s with port := { s.port.answered .ok (op.setWidth 16) with
        staging := { s.port.staging with slot := ⟨op.toNat, h⟩ } } }) ∧
    ∀ op, 8192 ≤ op.toNat → exec (.stageSlot op) s = .next (s.replied .range 0)

/-! ### The tariff unit -/

/-- The tariff table: an entry written at a zone and band is the one read there, and every other entry is left
(6.1). The check of an entry as written verifies, and with any one cell of the entry upset it does not (6.2).
WRITE TARIFF and BAR ZONE in every mode: the tests in their order, the clamped interval in the data, and the
one entry replaced, with a check that verifies (6.1, 6.2). -/
def Obligations.TariffEntriesAndFrames : Prop :=
  ((∀ (t : Tariff) (e : TariffEntry) (z y : BitVec 4) (b c : BitVec 2), z ≠ 0 → y ≠ 0 →
      (t.putEntry z b e).entry y c = if y = z ∧ c = b then e else t.entry y c) ∧
   (∀ e : TariffEntry, e.withCheck.verifies = true ∧
      { e.withCheck with valid := !e.valid }.verifies = false ∧
      { e.withCheck with check := !e.withCheck.check }.verifies = false ∧
      (∀ i, i < 8 → { e.withCheck with initialCharge := e.initialCharge ^^^ 1#8 <<< i }.verifies = false) ∧
      (∀ i, i < 13 → { e.withCheck with interval := e.interval ^^^ 1#13 <<< i }.verifies = false) ∧
      (∀ i, i < 10 → { e.withCheck with standardRate := e.standardRate ^^^ 1#10 <<< i }.verifies = false) ∧
      ∀ i, i < 10 → { e.withCheck with concessionRate := e.concessionRate ^^^ 1#10 <<< i }.verifies = false)) ∧
  (∀ s : State, s.listens →
     (s.port.staging.zone = 0 ∨ 255 < s.port.staging.initialCharge.toNat →
       exec .writeTariff s = .next (s.replied .range 0)) ∧
     (s.port.staging.zone ≠ 0 → s.port.staging.initialCharge.toNat ≤ 255 →
       ∃ (e : TariffEntry) (taken : Nat), exec .writeTariff s = .next { s with
           tariff := s.tariff.putEntry s.port.staging.zone s.port.staging.band e
           port := s.port.answered .ok (BitVec.ofNat 16 taken) } ∧
         (s.port.staging.interval.toNat < 5 → taken = 5) ∧ (6000 < s.port.staging.interval.toNat → taken = 6000) ∧
         (5 ≤ s.port.staging.interval.toNat → s.port.staging.interval.toNat ≤ 6000 →
           taken = s.port.staging.interval.toNat) ∧
         e.valid = true ∧ e.initialCharge.toNat = s.port.staging.initialCharge.toNat ∧ e.interval.toNat = taken ∧
         e.standardRate = s.port.staging.standardRate ∧ e.concessionRate = s.port.staging.concessionRate ∧
         e.verifies = true) ∧
     (∀ band, exec (.barZone 0 band) s = .next (s.replied .range 0)) ∧
     ∀ zone band, zone ≠ 0 → ∃ check, exec (.barZone zone band) s = .next { s with
         tariff := s.tariff.putEntry zone band
           { s.tariff.entry zone band with valid := false, check := check }
         port := s.port.answered .ok 0 } ∧
       ({ s.tariff.entry zone band with valid := false, check := check } : TariffEntry).verifies = true)

/-- WRITE BAND and CLEAR BAND in every mode: the tests in their order, the schedule after them in ascending
order, the current band recomputed, and both in the data (6.4). -/
def Obligations.BandFrames : Prop :=
  ∀ (s : State) (minute : BitVec 11) (band : BitVec 2), s.listens → s.tariff.legal →
    (1439 < minute.toNat → exec (.writeBand minute band) s = .next (s.replied .range 0) ∧
      exec (.clearBand minute) s = .next (s.replied .range 0)) ∧
    (minute.toNat ≤ 1439 → s.tariff.schedule.length = 8 → (∀ e ∈ s.tariff.schedule, e.1 ≠ minute.toNat) →
      exec (.writeBand minute band) s = .next (s.replied .full 0)) ∧
    (minute.toNat ≤ 1439 → s.tariff.schedule.length < 8 ∨ (∃ e ∈ s.tariff.schedule, e.1 = minute.toNat) →
      ∃ after, exec (.writeBand minute band) s = .next { s with
          tariff := { s.tariff with schedule := after, band := bandAt after s.tariff.second }
          port := s.port.answered .ok
            (BitVec.ofNat 16 (16 * after.length + (bandAt after s.tariff.second).toNat)) } ∧
        after.Pairwise (fun a b => a.1 < b.1) ∧
        (∀ e, e ∈ after ↔ e = (minute.toNat, band) ∨ (e.1 ≠ minute.toNat ∧ e ∈ s.tariff.schedule)) ∧
        after.length = (if ∃ e ∈ s.tariff.schedule, e.1 = minute.toNat then s.tariff.schedule.length
          else s.tariff.schedule.length + 1)) ∧
    (minute.toNat ≤ 1439 → ∃ after, exec (.clearBand minute) s = .next { s with
        tariff := { s.tariff with schedule := after, band := bandAt after s.tariff.second }
        port := s.port.answered .ok
          (BitVec.ofNat 16 (16 * after.length + (bandAt after s.tariff.second).toNat)) } ∧
      after.Sublist s.tariff.schedule ∧
      ∀ e, e ∈ after ↔ e.1 ≠ minute.toNat ∧ e ∈ s.tariff.schedule)

/-- R120: the current band by the schedule and the time of day: the latest entry at or before the minute, else
the last entry of the list, else band 0; with its consequences for one entry and about midnight. -/
def Obligations.CurrentBandByTheSchedule : Prop :=
  ∀ (schedule : List (Nat × BitVec 2)) (second : Nat), schedule.Pairwise (fun a b => a.1 < b.1) →
    (∀ e ∈ schedule, e.1 ≤ 1439) → second < 86400 →
    (∀ e ∈ schedule, e.1 ≤ second / 60 → (∀ d ∈ schedule, d.1 ≤ second / 60 → d.1 ≤ e.1) →
      bandAt schedule second = e.2) ∧
    ((∀ e ∈ schedule, second / 60 < e.1) → ∀ e ∈ schedule.getLast?, bandAt schedule second = e.2) ∧
    bandAt [] second = 0 ∧ (∀ e, bandAt [e] second = e.2) ∧
    ∀ e ∈ schedule.getLast?, (second / 60 = 1439 → bandAt schedule second = e.2) ∧
      (second / 60 = 0 → (∀ d ∈ schedule, d.1 ≠ 0) → bandAt schedule second = e.2)

/-- SET DAY and SET TIME in every mode, and the step of the clock: what each sets, what each leaves, when the
band is recomputed, and whether the clock is UNSET (6.5, 6.4). -/
def Obligations.ClockCommands : Prop :=
  ∀ s : State,
    (s.listens → ∀ day, exec (.setDay day) s = .next { s with
      tariff := { s.tariff with day := day, daySet := true }
      port := s.port.answered .ok (if s.tariff.timeSet then 0 else 1) }) ∧
    (s.listens → ∀ second : BitVec 17, 86400 ≤ second.toNat →
      exec (.setTime second) s = .next (s.replied .range 0)) ∧
    (s.listens → ∀ second : BitVec 17, second.toNat ≤ 86399 → exec (.setTime second) s = .next { s with
      tariff := { s.tariff with
        second := second.toNat, part := 0, timeSet := true
        band := bandAt s.tariff.schedule second.toNat }
      port := s.port.answered .ok (if s.tariff.daySet then 0 else 1) }) ∧
    (s.pins.released = true → s.tariff.second < 86399 → exec .clockStep s = .next { s with
      tariff := { s.tariff with
        second := s.tariff.second + 1, part := 0
        band := if ∃ e ∈ s.tariff.schedule, 60 * e.1 = s.tariff.second + 1
          then bandAt s.tariff.schedule (s.tariff.second + 1) else s.tariff.band } }) ∧
    (s.pins.released = true → s.tariff.second = 86399 → exec .clockStep s = .next { s with
      tariff := { s.tariff with
        second := 0, part := 0, day := BitVec.ofNat 16 (min 65535 (s.tariff.day.toNat + 1))
        band := if ∃ e ∈ s.tariff.schedule, e.1 = 0 then bandAt s.tariff.schedule 0 else s.tariff.band } })

/-- COLLECT TAKINGS: the 32 words, the counters at 0, and the number of saturated counters in the data (6.6).
The takings never fall but by COLLECT TAKINGS and a reset, and never pass their greatest value (6.6). -/
def Obligations.TakingsAreCollectedAndNeverFall : Prop :=
  (∀ s : State, s.serves → s.tariff.legal → ∃ words : List Word, exec .collectTakings s = .next { s with
       tariff := { s.tariff with takings := Vector.replicate 16 0 }
       port := { s.port.answered .ok
           (BitVec.ofNat 16 (s.tariff.takings.toList.countP fun n => n == 4294967295)) with
         buffer := words, pointer := 0 } } ∧
     words.length = 32 ∧ ∀ i : Fin 16, ∃ high low, words[2 * i.val]? = some high ∧
       words[2 * i.val + 1]? = some low ∧ s.tariff.takings[i] = 65536 * high.toNat + low.toNat) ∧
  (∀ (c : Instr) (s t : State), s.tariff.legal → c ≠ .collectTakings → resets c = false →
     exec c s = .next t → ∀ i : Fin 16,
       s.tariff.takings[i] ≤ t.tariff.takings[i] ∧ t.tariff.takings[i] ≤ 4294967295)

/-! ### The row lines -/

/-- CONFIGURE LINE PERIOD and CONFIGURE LINE TIMING in every mode and line state: the line's range, the clamp of
the period, the fit of the windows, and the held settings alone replaced (3.3, 8.8). SET SILENT LIMIT, SET GRACE
and SET CHECKPOINT in every mode: the range of the whole operand, and the one setting replaced, with its value
in the data (3.7, 5.3, 5.8, 8.8). -/
def Obligations.SettingsFrames : Prop :=
  (∀ s : State, s.listens →
     (∀ line period, 6 ≤ (line : BitVec 3).toNat →
       exec (.configureLinePeriod line period) s = .next (s.replied .range 0)) ∧
     (∀ line pitch, 6 ≤ (line : BitVec 3).toNat →
       exec (.configureLineTiming line pitch) s = .next (s.replied .range 0)) ∧
     (∀ (l : LineIx) (period : BitVec 17), ∃ taken : Nat,
       (period.toNat < 40 → taken = 40) ∧ (250 < period.toNat → taken = 250) ∧
       (40 ≤ period.toNat → period.toNat ≤ 250 → taken = period.toNat) ∧
       exec (.configureLinePeriod (BitVec.ofNat 3 l.val) period) s = .next
         (if (s.line l).held.offset + 8 * (s.line l).held.pitch ≤ 10 * taken then
           { s.withLine l { s.line l with held := { (s.line l).held with period := taken } } with
             port := s.port.answered .ok (BitVec.ofNat 16 taken) }
         else s.replied .range 0)) ∧
     ∀ (l : LineIx) (pitch : BitVec 9),
       exec (.configureLineTiming (BitVec.ofNat 3 l.val) pitch) s = .next
         (if s.port.staging.value.toNat ≤ 1000 ∧ 25 ≤ pitch.toNat ∧ pitch.toNat ≤ 255 ∧
             s.port.staging.value.toNat + 8 * pitch.toNat ≤ 10 * (s.line l).held.period then
           { s.withLine l { s.line l with held :=
               { (s.line l).held with offset := s.port.staging.value.toNat, pitch := pitch.toNat } } with
             port := s.port.answered .ok 0 }
         else s.replied .range 0)) ∧
  (∀ (s : State) (op : BitVec 20), s.listens →
     exec (.setSilentLimit op) s = .next (if 2 ≤ op.toNat ∧ op.toNat ≤ 15 then
       { s with settings := { s.settings with silentLimit := op.toNat }
                port := s.port.answered .ok (op.setWidth 16) } else s.replied .range 0) ∧
     exec (.setGrace op) s = .next (if op.toNat ≤ 30 then
       { s with settings := { s.settings with graceWindow := op.toNat }
                port := s.port.answered .ok (op.setWidth 16) } else s.replied .range 0) ∧
     exec (.setCheckpoint op) s = .next (if 1 ≤ op.toNat ∧ op.toNat ≤ 64 then
       { s with settings := { s.settings with checkpoint := op.toNat }
                port := s.port.answered .ok (op.setWidth 16) } else s.replied .range 0))

/-- ENABLE LINE in RUNNING: an index above 5 is out of range, a driven line is left as it is, and another goes
to BLANKING with its positions prepared and its first cycle started at once with count 0, its frame being sent; the
data is the six line states after it (3.2, 3.4). The states of the six
lines in the data of ENABLE LINE and DISABLE LINE, two bits a line (3.8, 11.2).
DISABLE LINE in RUNNING: out of range; a line in OFF is left; a line that is driven or FAULTED goes to OFF
with its cycle stopped, a driven line's positions and a FAULTED line's LOST positions enter OFF, and every claim
they held is settled and released; entries of other records, waiting or indexed, stand as they were (3.2, 4.9). -/
def Obligations.LinesAreEnabledAndDisabled : Prop :=
  ((∀ s : State, s.serves → s.ordersCurrent →
      (∀ line, 6 ≤ (line : BitVec 3).toNat → exec (.enableLine line) s = .next (s.replied .range 0)) ∧
      ∀ l : LineIx,
        ((s.line l).driven = true → exec (.enableLine (BitVec.ofNat 3 l.val)) s =
          .next (s.replied .ok (s.lineStates.setWidth 16))) ∧
        ((s.line l).driven = false → ∃ t, exec (.enableLine (BitVec.ofNat 3 l.val)) s = .next t ∧
          t = { s with lines := t.lines, positions := t.positions,
                       port := s.port.answered .ok (t.lineStates.setWidth 16) } ∧
          t.line l = { s.line l with
            state := .blanking, count := 0, cycle := (s.line l).held, phase := .sending (t.cycleFrame l 0)
            receiver := none, record := .noStart } ∧
          (∀ m, m ≠ l → t.line m = s.line m) ∧ (∀ p, lineOf p ≠ l → t.ctx p = s.ctx p) ∧
          ∀ p, lineOf p = l → t.ctx p =
            (if (s.ctx p).state = .off ∧ (s.ctx p).enabled = true then
              { s.ctx p with state := .vacant, highHalf := none, silentCount := 0, lastClass := .none }
            else { s.ctx p with silentCount := 0, lastClass := .none }))) ∧
   (∀ s : State, (∀ l : LineIx, s.lineStates.extractLsb' (2 * l.val) 2 = (s.line l).state.code) ∧
      LineState.off.code = 0 ∧ LineState.blanking.code = 1 ∧ LineState.running.code = 2 ∧
      LineState.faulted.code = 3)) ∧
  (∀ s : State, s.serves → s.ordersCurrent → s.directorySound →
     (∀ line, 6 ≤ (line : BitVec 3).toNat → exec (.disableLine line) s = .next (s.replied .range 0)) ∧
     ∀ l : LineIx,
       ((s.line l).state = .off → exec (.disableLine (BitVec.ofNat 3 l.val)) s =
         .next (s.replied .ok (s.lineStates.setWidth 16))) ∧
       ((s.line l).state ≠ .off → ∃ t, exec (.disableLine (BitVec.ofNat 3 l.val)) s = .next t ∧
         s.onlySettles t ((positionsOf l).flatMap fun p =>
           if (s.ctx p).state ≠ .off ∧ ((s.line l).state ≠ .faulted ∨ (s.ctx p).state = .lost)
           then (s.ctx p).heldSlots else []) ∧ t.attention = s.attention ∧
         t.port = s.port.answered .ok (t.lineStates.setWidth 16) ∧
         t.line l = { s.line l with
           state := .off, phase := .stopped, receiver := none, record := .noStart } ∧
         (∀ m, m ≠ l → t.line m = s.line m) ∧ (∀ p, lineOf p ≠ l → t.ctx p = s.ctx p) ∧
         ∀ p, lineOf p = l →
           ((s.ctx p).state = .off ∨ (s.line l).state = .faulted ∧ (s.ctx p).state ≠ .lost →
             t.ctx p = s.ctx p) ∧
           ((s.ctx p).state ≠ .off → (s.line l).state ≠ .faulted ∨ (s.ctx p).state = .lost →
             (t.ctx p).state = .off ∧ (t.ctx p).claim = none ∧ (t.ctx p).call = none ∧
             (t.ctx p).candidate = none ∧ (t.ctx p).highHalf = none ∧ (t.ctx p).refusedSerial = none ∧
             (t.ctx p).order = { verdict := .none, warn := false, shown := 0 } ∧
             (t.ctx p).enabled = (s.ctx p).enabled ∧
             (t.ctx p).outstanding = (s.ctx p).outstanding.map (fun o => { o with abandoned := true }) ∧
             ∀ k ∈ (s.ctx p).claim,
               t.queues k.slot (k.settlement (s.ctx p).working false) ∧ t.free k.slot)))

/-- A line fault: a driven line goes to FAULTED, its positions that are not OFF to LOST with their claims
settled and released; POSITION LOST is raised for each position that held a claim, in slot order (log 21), then LINE
FAULT for the line, and no other flag changes (3.2, 4.8, 9.1). A line that is not driven has no such event, which then leaves the
state as it is (log 6). -/
def Obligations.LineFaultLosesPositions : Prop :=
  ∀ (s : State) (l : LineIx), s.pins.released = true → s.ordersCurrent → s.directorySound →
    ((s.line l).driven = false → exec (.lineFaultEvent l) s = .next s) ∧
    ((s.line l).driven = true → ∃ t, exec (.lineFaultEvent l) s = .next t ∧
      s.onlySettles t ((positionsOf l).flatMap fun p =>
        if (s.ctx p).state ≠ .off ∧ (s.ctx p).state ≠ .lost then (s.ctx p).heldSlots else []) ∧
      s.port.onlyMarked t.port ∧
      t.line l = { s.line l with
        state := .faulted, phase := .stopped, receiver := none, record := .noStart } ∧
      (∀ m, m ≠ l → t.line m = s.line m) ∧ (∀ p, lineOf p ≠ l → t.ctx p = s.ctx p) ∧
      t.attention = (State.raiseLineFault l (((positionsOf l).filter fun p =>
          (s.ctx p).claim.isSome && decide ((s.ctx p).state ≠ .off ∧ (s.ctx p).state ≠ .lost)).foldl
        (fun u p => u.raisePositionLost p) s)).attention ∧
      t.attention = { s.attention with
        lineFault := t.attention.lineFault, positionLost := t.attention.positionLost
        pulses := t.attention.pulses, driving := t.attention.driving } ∧
      t.attention.lineFault = some (s.attention.lineFault.getD 0 ||| 1#6 <<< l.val) ∧
      (∀ p, (t.attention.positionLost.getD 0).getLsbD p.val =
        ((s.attention.positionLost.getD 0).getLsbD p.val ||
          (decide (lineOf p = l) && (s.ctx p).claim.isSome && decide ((s.ctx p).state ≠ .off) &&
            decide ((s.ctx p).state ≠ .lost)))) ∧
      ∀ p, lineOf p = l →
        ((s.ctx p).state = .off ∨ (s.ctx p).state = .lost → t.ctx p = s.ctx p) ∧
        ((s.ctx p).state ≠ .off → (s.ctx p).state ≠ .lost →
          (t.ctx p).state = .lost ∧ (t.ctx p).claim = none ∧ (t.ctx p).call = none ∧
          (t.ctx p).candidate = none ∧ (t.ctx p).order = { verdict := .none, warn := false, shown := 0 } ∧
          (t.ctx p).outstanding = (s.ctx p).outstanding.map (fun o => { o with abandoned := true }) ∧
          ∀ k ∈ (s.ctx p).claim,
            t.queues k.slot (k.settlement (s.ctx p).working false) ∧ t.free k.slot))

/-- The start of a cycle after slot 7's window, and the end of its frame: the count advanced, the state from the
cycle of count 3, the settings copied, the frame composed, the window record cleared, and window 0 after the frame
(3.4). ENABLE LINE has started the first cycle; a cycle start while another cycle goes on does not occur (log 6,
log 8). The fields of a cycle-open frame: line, count, the order of each slot from its position's context, check
(3.4, 11.1). -/
def Obligations.CyclesOpenWithAFrame : Prop :=
  (∀ (s : State) (l : LineIx), s.pins.released = true →
     (∀ count, count = (s.line l).count + 1 → (s.line l).driven = true → (s.line l).phase = .over →
       exec (.cycleStart l) s = .next (s.withLine l { s.line l with
         state := if (s.line l).state = .blanking ∧ count = 3 then .running else (s.line l).state
         count := count, cycle := (s.line l).held, phase := .sending (s.cycleFrame l count), receiver := none
         record := .noStart })) ∧
     ((s.line l).driven = false ∨ (s.line l).phase ≠ .over → exec (.cycleStart l) s = .next s) ∧
     ∀ f, (s.line l).phase = .sending f →
       exec (.cycleOpenFrameEnd l) s = .next (s.withLine l { s.line l with phase := .window 0 })) ∧
  (∀ (s : State) (l : LineIx) (count : BitVec 4),
     (s.cycleFrame l count).extractLsb' 180 3 = BitVec.ofNat 3 l.val ∧
     (s.cycleFrame l count).extractLsb' 176 4 = count ∧
     (∀ k : Fin 8,
       (s.cycleFrame l count).extractLsb' (155 - 21 * k.val + 17) 4 = (s.ctx (posOf l k)).order.verdict.code ∧
       (s.cycleFrame l count).getLsbD (155 - 21 * k.val + 16) = (s.ctx (posOf l k)).order.warn ∧
       (s.cycleFrame l count).extractLsb' (155 - 21 * k.val) 16 =
         BitVec.ofNat 16 (s.ctx (posOf l k)).order.shown) ∧
     (s.cycleFrame l count).extractLsb' 0 8 = crc8 (msbFirst ((s.cycleFrame l count).extractLsb' 8 175)))

/-- The slot of a transmission by the microsecond of its start, by the cycle settings: window k opens S0 + kW
after the frame, and a start at the instant a window closes belongs to the next or to none (3.4, 3.5). The start
of a transmission is noted while the line listens and receives no other; its end, with its bits, is kept for the
first transmission of the window being received; past slot 7's window a transmission is passed over (3.5). The
microseconds are log 9. -/
def Obligations.TransmissionsAreReceived : Prop :=
  (∀ (t : Timing) (time : Nat), 0 < t.pitch →
     (∀ k : Fin 8, t.slotAt time = some k ↔
       (k = 0 ∨ 100 * (t.offset + k.val * t.pitch) ≤ time) ∧
         time < 100 * (t.offset + (k.val + 1) * t.pitch)) ∧
     (t.slotAt time = none ↔ 100 * (t.offset + 8 * t.pitch) ≤ time)) ∧
  (∀ (s : State) (l : LineIx) (time : Nat), s.pins.released = true → (s.line l).driven = true →
     (∀ k : Fin 8, (s.line l).phase = .window k →
       ((s.line l).receiver = none → (s.line l).cycle.slotAt time = some k →
         exec (.transmissionStart l time) s = .next (s.withLine l { s.line l with
           receiver := some { start := time, slot := some k }
           record := match (s.line l).record with
             | .noStart => .one { start := time, finish := none }
             | .one f => .many f
             | .many f => .many f })) ∧
       ((s.line l).receiver = none → (s.line l).cycle.slotAt time ≠ some k →
         exec (.transmissionStart l time) s = .next (s.withLine l { s.line l with
           receiver := some { start := time, slot := (s.line l).cycle.slotAt time } })) ∧
       ((s.line l).receiver ≠ none → exec (.transmissionStart l time) s = .next s) ∧
       ∀ r bits, (s.line l).receiver = some r →
         ((s.line l).record = .one { start := r.start, finish := none } → r.slot = some k →
           exec (.transmissionEnd l time bits) s = .next (s.withLine l { s.line l with
             receiver := none, record := .one { start := r.start, finish := some (time, bits) } })) ∧
         (r.slot ≠ some k → exec (.transmissionEnd l time bits) s =
           .next (s.withLine l { s.line l with receiver := none }))) ∧
     ((s.line l).phase = .over →
       ((s.line l).receiver = none → exec (.transmissionStart l time) s = .next (s.withLine l { s.line l with
         receiver := some { start := time, slot := (s.line l).cycle.slotAt time } })) ∧
       ((s.line l).receiver ≠ none → exec (.transmissionStart l time) s = .next s ∧
         ∀ bits, exec (.transmissionEnd l time bits) s =
           .next (s.withLine l { s.line l with receiver := none }))) ∧
     ∀ f, (s.line l).phase = .sending f →
       exec (.transmissionStart l time) s = .next s)

/-- R50: the class of a slot window by the tests in their order. -/
def Obligations.WindowsAreClassified : Prop :=
  ∀ (t : Timing) (p : Pos) (k : Fin 8) (r : WindowRecord),
    ((classify t p k r).1 = .silent ↔ r = .noStart) ∧
    ((classify t p k r).1 = .slotFault ↔ (∃ f, r = .many f) ∨ ∃ f, r = .one f ∧
      (f.start < 100 * (t.offset + k.val * t.pitch) ∨
        ∀ finish bits, f.finish = some (finish, bits) →
          100 * (t.offset + (k.val + 1) * t.pitch) < finish)) ∧
    ∀ f finish bits, r = .one f → f.finish = some (finish, bits) →
      100 * (t.offset + k.val * t.pitch) ≤ f.start → finish ≤ 100 * (t.offset + (k.val + 1) * t.pitch) →
      classify t p k r =
        if crc5 (msbFirst (bits.extractLsb' 5 33)) ≠ bits.extractLsb' 0 5 then (.checkFault, none)
        else if (bits.extractLsb' 32 6).toNat ≠ p.val + 1 then (.positionFault, none)
        else (.valid, some bits)

/-- The close of a slot window in BLANKING hands nothing on and opens the next window, in which the start of a
transmission still being received is noted where it belongs to that window; a window whose first transmission is still
being received is SLOT FAULT at its close. In RUNNING it writes the class to the slot's position: to a position in OFF nothing more, to another one silent cycle for every class but
VALID, which takes it to LOST at the silent limit, with its claim settled and released and POSITION LOST raised, and
from a telephone at rest, on hook without a card, the fields of its report (3.5 to 3.8, 4.3, 4.8). -/
def Obligations.WindowsCloseAndHandOn : Prop :=
  ∀ (s : State) (l : LineIx) (k : Fin 8), s.pins.released = true → s.ordersCurrent →
    (s.line l).phase = .window k →
    let p := posOf l k
    let c := s.ctx p
    let w := classify (s.line l).cycle p k (s.line l).record
    let count := min 15 (c.silentCount + 1)
    (∀ f, (s.line l).record = .one f → f.finish = none → w = (.slotFault, none)) ∧
    (∀ r, (s.line l).receiver = some r → ∀ next : Fin 8, next.val = k.val + 1 → r.slot = some next →
      ((s.line l).closed k).record = .one { start := r.start, finish := none }) ∧
    ((s.line l).receiver = none → ((s.line l).closed k).record = .noStart) ∧
    ((s.line l).state = .blanking → s.closes l k s) ∧
    ((s.line l).state = .running →
      (c.state = .off → s.closes l k (s.withCtx p { c with lastClass := w.1 })) ∧
      (c.state ≠ .off → w.2 = none → count < s.settings.silentLimit ∨ c.state = .lost →
        s.closes l k (s.withCtx p { c with lastClass := w.1, silentCount := count })) ∧
      (c.state ≠ .off → c.state ≠ .lost → w.2 = none → s.settings.silentLimit ≤ count →
        let lost : Position := { c.abandoned.unrefused with
          lastClass := w.1, silentCount := count, state := .lost, call := none, candidate := none
          highHalf := none, order := .plain .none 0 }
        (c.claim = none → s.closes l k (s.withCtx p lost)) ∧
        ∀ held, c.claim = some held → ∃ u, s.settles u p held lost.emptied ∧
          s.closes l k { u with attention := (s.raisePositionLost p).attention }) ∧
      ∀ bits, c.state = .vacant → w.2 = some bits → bits.getLsbD 30 = false → bits.extractLsb' 9 4 = 0 →
        s.closes l k (s.withCtx p { c with
          lastClass := .valid, silentCount := 0, highHalf := none
          lastHook := if bits.getLsbD 31 then .off else .on }))

/-- What a valid report does at a position without a call: a card put in goes to READING, one gone to VACANT, a
serial completed sends a claim, a claim in flight is abandoned when its card leaves, a claim answered WAIT is sent
again, a card held is settled and released when it leaves or another is met, a refused card is forgotten, and a call
answered on no card or a refused one is cut CUT-UNPAID unless it is free: also where the card has left with the same
report (4.2 to 4.8). A LOST position takes the report from VACANT (4.8). What sending a claim does is stated of `State.sendClaim`. -/
def Obligations.ReportsWithoutACall : Prop :=
  ∀ (s : State) (l : LineIx) (k : Fin 8) (bits : BitVec 38), s.hears l k bits →
    let p := posOf l k
    let c := s.ctx p
    let present := bits.getLsbD 30
    let zone := bits.extractLsb' 9 4
    let h := c.heard bits
    let vacant (d : Position) : Position := { d with state := .vacant, candidate := none, order := .plain .none 0 }
    let leaves (d : Position) : Prop := s.closes l k (s.withCtx p d)
    let sends (x : Serial) (d : Position) : Prop := s.closes l k ((s.withCtx p d).sendClaim p x)
    -- a call is answered without a card that can pay: free, it leaves the position as it is; the rest of the state is `u`
    let unpaidFrom (u : State) (d : Position) : Prop :=
      (∀ e, s.entryInForce zone = some e → e.initialCharge = 0 ∧ e.standardRate = 0 → s.closes l k (u.withCtx p d)) ∧
      ((∀ e, s.entryInForce zone = some e → e.initialCharge ≠ 0 ∨ e.standardRate ≠ 0) → s.closes l k {
        u.withCtx p { d with state := .cut, call := none, order := .plain .cutUnpaid 0 } with
          attention := s.attentionAfterRead zone })
    let unpaid (d : Position) : Prop := unpaidFrom s d
    (c.state = .vacant ∨ c.state = .lost →
      let d : Position := { h with state := .vacant, order := .plain .none 0 }
      (present = true → leaves { d with state := .reading }) ∧
      (present = false → zone = 0 → leaves d) ∧ (present = false → zone ≠ 0 → unpaid d)) ∧
    (c.state = .reading →
      (present = false → zone = 0 → leaves (vacant h)) ∧ (present = false → zone ≠ 0 → unpaid (vacant h)) ∧
      (present = true → c.completes bits = none → leaves h) ∧
      ∀ x, c.completes bits = some x → sends x h) ∧
    (c.state = .checking →
      (present = false → zone = 0 → leaves (vacant h.abandoned)) ∧
      (present = false → zone ≠ 0 → unpaid (vacant h.abandoned)) ∧
      (∀ x, c.completes bits = some x → c.candidate ≠ some x → leaves { h.abandoned with
        state := .reading, candidate := none, highHalf := none, order := .plain .none 0 }) ∧
      (present = true → c.completes bits = none ∨ c.completes bits = c.candidate → leaves h)) ∧
    (c.state = .waiting →
      (present = false → zone = 0 → leaves (vacant h)) ∧ (present = false → zone ≠ 0 → unpaid (vacant h)) ∧
      (∀ x, c.completes bits = some x → sends x h) ∧
      ∀ x, present = true → c.completes bits = none → c.candidate = some x → sends x h) ∧
    (c.state = .held → c.call = none → ∀ held, c.claim = some held →
      (present = false → zone = 0 → ∃ u, s.settles u p held (vacant h.emptied) ∧ s.closes l k u) ∧
      (present = false → zone ≠ 0 → ∃ u,
        s.settles u p held (vacant h.emptied) ∧ unpaidFrom u (vacant h.emptied)) ∧
      (∀ x, c.completes bits = some x → x ≠ held.serial → ∃ u,
        s.settles u p held { h.emptied with order := .plain .accepted 0 } ∧ s.closes l k (u.sendClaim p x)) ∧
      (present = true → zone = 0 → c.completes bits = none ∨ c.completes bits = some held.serial → leaves h)) ∧
    (c.state = .refused →
      (present = false → zone = 0 → leaves (vacant h.unrefused)) ∧
      (present = false → zone ≠ 0 → unpaid (vacant h.unrefused)) ∧
      (∀ x, c.completes bits = some x → c.refusedSerial ≠ some x →
        sends x { h.unrefused with order := .plain .none 0 }) ∧
      (∀ x, c.completes bits = some x → c.refusedSerial = some x → leaves h) ∧
      (present = true → c.completes bits = none → zone = 0 → leaves h) ∧
      (present = true → c.completes bits = none → zone ≠ 0 → unpaid h))

/-! ### The positions -/

/-- ENABLE POSITION of a position 1 to 48: the mark is set, and a position in OFF on a driven line enters VACANT
with silent count 0; the data is its state after the action (4.9). The four position frames take positions 1 to
48 and refuse every other number with RANGE, changing nothing (4.9).
READ POSITION loads the ten words of the position's context, and changes nothing else (4.9, 11.3). -/
def Obligations.PositionsAreEnabledAndRead : Prop :=
  ((∀ (s : State) (p : Pos), s.serves → s.ordersCurrent →
      ((s.ctx p).state = .off → (s.line (lineOf p)).driven = true →
        exec (.enablePosition (BitVec.ofNat 20 (p.val + 1))) s =
          .next { s.withCtx p { s.ctx p with
              enabled := true, state := .vacant, silentCount := 0, highHalf := none } with
            port := s.port.answered .ok 1 }) ∧
      ((s.ctx p).state ≠ .off ∨ (s.line (lineOf p)).driven = false →
        exec (.enablePosition (BitVec.ofNat 20 (p.val + 1))) s =
          .next { s.withCtx p { s.ctx p with enabled := true } with
            port := s.port.answered .ok ((s.ctx p).state.code.setWidth 16) })) ∧
   (∀ (s : State) (op : BitVec 20), s.serves → op.toNat = 0 ∨ 48 < op.toNat →
      exec (.enablePosition op) s = .next (s.replied .range 0) ∧
      exec (.disablePosition op) s = .next (s.replied .range 0) ∧
      exec (.releasePosition op) s = .next (s.replied .range 0) ∧
      exec (.readPosition op) s = .next (s.replied .range 0))) ∧
  (∀ (s : State) (p : Pos), s.serves → ∃ w1 w2 w9 : Word,
     exec (.readPosition (BitVec.ofNat 20 (p.val + 1))) s = .next { s with port :=
       { s.port.answered .ok 10 with
         pointer := 0
         buffer := [w1, w2, (s.ctx p).shownSerial.extractLsb' 16 16, (s.ctx p).shownSerial.extractLsb' 0 16,
           BitVec.ofNat 16 (s.ctx p).order.shown, BitVec.ofNat 16 (s.ctx p).claimBalance,
           BitVec.ofNat 16 (s.ctx p).working, BitVec.ofNat 16 (s.ctx p).debited, w9,
           BitVec.ofNat 16 (((s.ctx p).call.map Call.amount).getD 0)] } } ∧
     (∀ k ∈ (s.ctx p).claim, (s.ctx p).shownSerial = k.serial) ∧
     ((s.ctx p).claim = none → (s.ctx p).shownSerial =
       (((s.ctx p).candidate <|> (s.ctx p).refusedSerial).getD 0)) ∧
     w1.extractLsb' 12 4 = (s.ctx p).state.code ∧
     ((s.ctx p).state = .grace → ∀ k ∈ (s.ctx p).call, w1.extractLsb' 8 3 = k.sub.code) ∧
     ((s.ctx p).state ≠ .grace → w1.extractLsb' 8 3 = 0) ∧
     w1.getLsbD 2 = (s.ctx p).enabled ∧ w1.getLsbD 1 = (s.ctx p).outstanding.isSome ∧
     (w1.getLsbD 0 = true ↔ ∃ o ∈ (s.ctx p).outstanding, o.abandoned = true) ∧
     w2.extractLsb' 13 3 = (s.ctx p).lastClass.code ∧
     w2.extractLsb' 8 4 = BitVec.ofNat 4 (s.ctx p).silentCount ∧
     (w2.getLsbD 7 = true ↔ (s.ctx p).lastHook = .off) ∧ w2.getLsbD 4 = (s.ctx p).order.warn ∧
     w2.extractLsb' 0 4 = (s.ctx p).order.verdict.code ∧
     w9.extractLsb' 8 4 = ((s.ctx p).call.map Call.zone).getD 0 ∧
     w9.extractLsb' 0 2 = BitVec.ofNat 2 (((s.ctx p).call.map fun k => k.phase.val).getD 0))

/-- DISABLE POSITION and RELEASE POSITION: the position enters OFF from any state, its claim settled and
released, a claim outstanding abandoned, the call and the serial items dropped; the first clears the mark, the
second leaves it (4.9, 4.8). -/
def Obligations.PositionsGoOff : Prop :=
  ∀ (s : State) (p : Pos) (release : Bool), s.serves → s.ordersCurrent → ∃ t,
    exec (if release then .releasePosition (BitVec.ofNat 20 (p.val + 1))
      else .disablePosition (BitVec.ofNat 20 (p.val + 1))) s = .next t ∧
    s.onlySettles t (if (s.ctx p).state = .off then [] else (s.ctx p).heldSlots) ∧
    t.attention = s.attention ∧ t.lines = s.lines ∧ t.port = s.port.answered .ok 0 ∧ (∀ q, q ≠ p → t.ctx q = s.ctx q) ∧
    (t.ctx p).enabled = (release && (s.ctx p).enabled) ∧
    ((s.ctx p).state = .off → t.ctx p = { s.ctx p with enabled := (t.ctx p).enabled }) ∧
    ((s.ctx p).state ≠ .off → t.ctx p = { s.ctx p with
        enabled := (t.ctx p).enabled, state := .off, highHalf := none, candidate := none
        outstanding := (s.ctx p).outstanding.map fun o => { o with abandoned := true }
        claim := none
        claimBalance := (t.ctx p).claimBalance, working := (t.ctx p).working, debited := (t.ctx p).debited
        refusedSerial := none, refusedVerdict := .none, refusedBalance := 0, call := none
        order := { verdict := .none, warn := false, shown := 0 } } ∧
      ∀ k ∈ (s.ctx p).claim,
        t.queues k.slot (k.settlement (s.ctx p).working false) ∧ t.free k.slot ∧
        (t.ctx p).claimBalance = 0 ∧ (t.ctx p).working = 0 ∧ (t.ctx p).debited = 0)

/-! ### The calls -/

/-- R84: a rate charge at rate r quarters and phase p, and its total over any four phases in turn. -/
def Obligations.RateChargesTotalTheRate : Prop :=
  ∀ r : Nat, r ≤ 1023 →
    (∀ p : Fin 4, rateCharge r p = r / 4 + if p.val < r % 4 then 1 else 0) ∧
    rateCharge r 0 + rateCharge r 1 + rateCharge r 2 + rateCharge r 3 = r ∧
    (r = 0 → ∀ p : Fin 4, rateCharge r p = 0) ∧
    [1, 2, 3, 4, 6, 10, 1023].map (fun q => [0, 1, 2, 3].map (rateCharge q)) =
      [[1, 0, 0, 0], [1, 1, 0, 0], [1, 1, 1, 0], [1, 1, 1, 1], [2, 2, 1, 1], [3, 3, 2, 2],
        [256, 256, 256, 255]]

/-- An interval expiry in METERED that the card can pay: the charge is fixed at the phase that the rate gives,
W, D and the takings take it, the timer starts again, the warn flag follows the next two charges, the checkpoint
step settles, and a counter left at its greatest value raises TAKINGS FULL; at a charge of 0 no test is made (5.2,
5.3, 5.5, 6.6). That the warn flag follows at a charge of 0 too is the model's choice (log 16). -/
def Obligations.IntervalExpiryDebits : Prop :=
  ∀ (s : State) (p : Pos) (k : Call) (held : Claim) (e : TariffEntry),
    s.pins.released = true → s.ordersCurrent → (s.ctx p).state = .metered → (s.ctx p).call = some k →
    k.intervalTimer.isSome = true → k.zone ≠ 15 → k.zone ≠ 0 → (s.ctx p).claim = some held →
    s.entryInForce k.zone = some e →
    let rate := e.rateFor held.cls
    let phase : Fin 4 := if rate = k.rateUsed then k.phase else 0
    let charge := rateCharge rate phase
    let service := decide (held.cls = .service)
    let counter := counterIndex held.cls k.zone
    let W := if service then (s.ctx p).working else (s.ctx p).working - charge
    let D := (s.ctx p).debited + charge
    let settles := 0 < charge ∧ (if s.pins.pwrlow then 1 else s.settings.checkpoint) ≤ D
    service = true ∨ charge ≤ (s.ctx p).working → s.tariff.takings[counter] ≤ 4294967295 →
    ∃ t, exec (.intervalExpiry p) s = .next t ∧ s.onlyQueues t [held.slot] ∧
      t.lines = s.lines ∧ (∀ q, q ≠ p → t.ctx q = s.ctx q) ∧ t.dir.entries = s.dir.entries ∧
      s.port.onlyMarked t.port ∧
      t.ctx p = { s.ctx p with
        working := W, debited := if settles then 0 else D
        call := some { k with
          rateUsed := rate, interval := e.interval.toNat, phase := phase + 1
          intervalTimer := some e.interval.toNat, graceTimer := none, amount := 0, sub := .old }
        order := { verdict := .accepted, shown := W
                   warn := !service && decide (W < rateCharge rate (phase + 1) + rateCharge rate (phase + 2)) } } ∧
      (∀ i : Fin 16, t.tariff.takings[i] =
        if i = counter then min 4294967295 (s.tariff.takings[i] + charge) else s.tariff.takings[i]) ∧
      (charge = 0 ∨ s.tariff.takings[counter] + charge < 4294967295 → t.attention = s.attention) ∧
      (0 < charge → 4294967295 ≤ s.tariff.takings[counter] + charge → t.attention.takingsFull = true) ∧
      (settles → t.queues held.slot
        { held.image with balance := W, state := if W = 0 then .empty else held.image.state }) ∧
      (¬settles → t.engine = s.engine ∧ t.dir = s.dir ∧ t.port = s.port)

/-- An interval expiry in METERED that the card cannot pay enters GRACE with the charge as the amount, or
CUT-EXHAUSTED with a grace window of 0; a charge above 255 is cut CUT-OTHER; and with no usable entry it is cut
CUT-BARRED, uncharged, with TARIFF FAULT where the entry's check fails (5.5, 5.8, 5.9, 6.2). The grace timer's
expiry enters CUT with CUT-EXHAUSTED: the amount is not charged and the claim is kept; a claim that was answered
WAIT is not (5.8). -/
def Obligations.CallsThatAreNotPaid : Prop :=
  (∀ (s : State) (p : Pos) (k : Call) (held : Claim), s.pins.released = true → s.ordersCurrent →
     (s.ctx p).state = .metered → (s.ctx p).call = some k → k.intervalTimer.isSome = true →
     (s.ctx p).claim = some held →
     let cut (v : Verdict) := s.withCtx p { s.ctx p with
       state := .cut, call := none, order := { verdict := v, warn := false, shown := 0 } }
     (s.entryInForce k.zone = none → ∃ t, exec (.intervalExpiry p) s = .next t ∧
       t = { cut .cutBarred with attention := t.attention } ∧
       ((s.tariff.entry k.zone s.tariff.band).verifies = true → t.attention = s.attention) ∧
       ((s.tariff.entry k.zone s.tariff.band).verifies = false →
         t.attention.tariffFault = some (k.zone, s.tariff.band))) ∧
     ∀ e, s.entryInForce k.zone = some e → held.cls ≠ .service →
       let rate := e.rateFor held.cls
       let phase : Fin 4 := if rate = k.rateUsed then k.phase else 0
       let charge := rateCharge rate phase
       (s.ctx p).working < charge →
         exec (.intervalExpiry p) s = .next (
           if 255 < charge then cut .cutOther
           else if s.settings.graceWindow = 0 then cut .cutExhausted
           else s.withCtx p { s.ctx p with
             state := .grace
             call := some { k with
               rateUsed := rate, interval := e.interval.toNat, phase := phase + 1, amount := charge
               intervalTimer := none, graceTimer := some (10 * s.settings.graceWindow), sub := .old }
             order := { verdict := .grace, warn := false, shown := charge } })) ∧
  (∀ (s : State) (p : Pos) (k : Call), s.pins.released = true → (s.ctx p).state = .grace →
     (s.ctx p).call = some k → k.graceTimer.isSome = true →
     exec (.graceTimerExpiry p) s = .next (s.withCtx p { s.ctx p with
       state := .cut, call := none, order := { verdict := .cutExhausted, warn := false, shown := 0 }
       candidate := if k.sub = .checking ∧ (s.ctx p).outstanding = none then none
         else (s.ctx p).candidate }))

/-- The answer event: a report at a window's close that shows the card held still there and a zone. With a usable
entry a card that can pay debits the initial charge and, in a timed zone, the first rate charge together, and is
METERED: with its timer started and the first phase behind it, or in zone 15 with the timer stopped, phase 0 and the
report's pulse count kept. A card that cannot pay owes the whole in GRACE, or is cut CUT-EXHAUSTED with a grace window
of 0 and CUT-OTHER above 255; a SERVICE card always pays, and its balance stands. With no usable entry the call is cut
CUT-BARRED, uncharged, with TARIFF FAULT where the entry's check fails. The debit makes its checkpoint test and counts
its takings (5.3, 5.4, 5.8, 6.2, 6.6). -/
def Obligations.TheAnswerPaysTheFirstCharge : Prop :=
  ∀ (s : State) (l : LineIx) (k : Fin 8) (bits : BitVec 38) (held : Claim), s.hears l k bits →
    let p := posOf l k
    let c := s.ctx p
    let zone := bits.extractLsb' 9 4
    let h := c.heard bits
    let leaves (d : Position) : Prop := s.closes l k (s.withCtx p d)
    let cut (v : Verdict) : Position := { h with state := .cut, call := none, order := .plain v 0 }
    c.state = .held → c.claim = some held → bits.getLsbD 30 = true →
    c.completes bits = none ∨ c.completes bits = some held.serial → zone ≠ 0 →
    (s.entryInForce zone = none → s.closes l k
      { s.withCtx p (cut .cutBarred) with attention := s.attentionAfterRead zone }) ∧
    ∀ e, s.entryInForce zone = some e →
      let rate := e.rateFor held.cls
      let due := e.initialCharge.toNat + if zone = 15 then 0 else rateCharge rate 0
      let call : Call := {
        zone := zone, rateUsed := rate, interval := e.interval.toNat, phase := if zone = 15 then 0 else 1
        intervalTimer := none, amount := 0, graceTimer := none
        lastPulse := if zone = 15 then some (bits.extractLsb' 5 4) else none, sub := .old }
      let a := s.account held.cls [due] c.working c.debited
      (held.cls = .service ∨ due ≤ c.working → s.tariff.takings[counterIndex held.cls zone] ≤ 4294967295 →
        ∃ u, s.pays u p held zone [due] a { h with
          state := .metered, working := a.working, debited := a.debited
          call := some { call with intervalTimer := if zone = 15 then none else some e.interval.toNat }
          order := { verdict := .accepted, shown := a.working
                     warn := decide (held.cls ≠ .service ∧
                       a.working < rateCharge rate call.phase + rateCharge rate (call.phase + 1)) } } ∧
        s.closes l k u) ∧
      (held.cls ≠ .service → c.working < due → leaves (
        if 255 < due then cut .cutOther
        else if s.settings.graceWindow = 0 then cut .cutExhausted
        else { h with
          state := .grace, order := .plain .grace due
          call := some { call with amount := due, graceTimer := some (10 * s.settings.graceWindow) } }))

/-- What a valid report does in METERED. Without new pulses zone 0 hangs up, and the rest is taken in HELD: the card
stays, leaves with its settlement, or is swapped, the next being claimed; without zone 0 a card out or another card
settles and releases the claim and cuts the call CUT-OTHER; and else the call goes on (5.7). The new pulses of a zone 15
call are counted mod 16 and charged in turn, each with its own checkpoint test and takings: those the card can pay are
debited, and from the first that it cannot pay they are owed together, in GRACE, or the call is cut; with no usable
entry it is cut CUT-BARRED, and none is charged (5.3, 5.6, 5.8, 6.2, 6.6). That the warn flag follows a pulse of charge 0
too is the model's choice (log 16). Whatever else the report shows, a hang-up or a
card out, is then taken as the same report would be in the state that the pulses have left (5.7). -/
def Obligations.ReportsInMetered : Prop :=
  ∀ (s : State) (l : LineIx) (k : Fin 8) (bits : BitVec 38) (q : Call) (held : Claim), s.hears l k bits →
    let p := posOf l k
    let c := s.ctx p
    let present := bits.getLsbD 30
    let zone := bits.extractLsb' 9 4
    let pulse := bits.extractLsb' 5 4
    let h := c.heard bits
    let cut (v : Verdict) (d : Position) : Position := { d with state := .cut, call := none, order := .plain v 0 }
    let leaves (d : Position) : Prop := s.closes l k (s.withCtx p d)
    let same : Prop := c.completes bits = none ∨ c.completes bits = some held.serial
    c.state = .metered → c.call = some q → c.claim = some held →
    (q.zone ≠ 15 ∨ q.lastPulse = some pulse →
      (present = true → same → zone ≠ 0 → leaves h) ∧
      (present = true → same → zone = 0 →
        leaves { h with state := .held, call := none, order := .plain .accepted c.working }) ∧
      (zone ≠ 0 → present = false ∨ ¬same → ∃ u, s.settles u p held (cut .cutOther h.emptied) ∧ s.closes l k u) ∧
      (zone = 0 → present = false → ∃ u, s.settles u p held
        { h.emptied with state := .vacant, call := none, candidate := none, order := .plain .none 0 } ∧
        s.closes l k u) ∧
      ∀ x, c.completes bits = some x → x ≠ held.serial → zone = 0 → ∃ u, s.settles u p held
        { h.emptied with state := .held, call := none, order := .plain .accepted 0 } ∧
        s.closes l k (u.sendClaim p x)) ∧
    ∀ v, q.zone = 15 → q.lastPulse = some v → pulse ≠ v →
      -- the pulses leave the state `u`, from which the rest of the report is taken
      let follows (u : State) : Prop := exec (.slotWindowClose l) s = exec (.slotWindowClose l) u ∧
        (present = true → same → zone ≠ 0 → s.closes l k (u.withCtx p ((u.ctx p).heard bits)))
      (s.entryInForce 15 = none → follows
        { s.withCtx p (cut .cutBarred c) with attention := s.attentionAfterRead 15 }) ∧
      ∀ e, s.entryInForce 15 = some e → s.tariff.takings[counterIndex held.cls 15] ≤ 4294967295 →
        let n := (pulse - v).toNat
        let rate := e.rateFor held.cls
        let first : Fin 4 := if rate = q.rateUsed then q.phase else 0
        -- the charges of the first m of the pulses, and the account once they are paid
        let charges (m : Nat) := (List.range m).map fun i => rateCharge rate (first + Fin.ofNat 4 i)
        let account (m : Nat) := s.account held.cls (charges m) c.working c.debited
        let call : Call := { q with
          rateUsed := rate, interval := e.interval.toNat, phase := first + Fin.ofNat 4 n, lastPulse := some pulse
          intervalTimer := none, graceTimer := none, sub := .old }
        -- m of the pulses are paid, and the position is left as `d`
        let pays (m : Nat) (d : Position) : Prop :=
          ∃ u, s.pays u p held 15 (charges m) (account m) d ∧ follows u
        (held.cls = .service ∨ (charges n).sum ≤ c.working →
          let a := account n
          pays n { c with
            working := a.working, debited := a.debited, call := some { call with amount := 0 }
            order := { verdict := .accepted, shown := a.working
                       warn := decide (held.cls ≠ .service ∧
                         a.working < rateCharge rate call.phase + rateCharge rate (call.phase + 1)) } }) ∧
        ∀ m, m < n → held.cls ≠ .service → (charges m).sum ≤ c.working → c.working < (charges (m + 1)).sum →
          let owed := (charges n).sum - (charges m).sum
          let d : Position := { c with working := (account m).working, debited := (account m).debited }
          pays m (
            if 255 < owed then cut .cutOther d
            else if s.settings.graceWindow = 0 then cut .cutExhausted d
            else { d with
              state := .grace, order := .plain .grace owed
              call := some { call with amount := owed, graceTimer := some (10 * s.settings.graceWindow) } })

/-- What a valid report does in GRACE and in CUT. In GRACE the card sub-state follows the card: the old card is
settled and released when it leaves, another is read and claimed, and zone 0 forgives the amount and ends the call in
the state that the sub-state implies after the card fields, also where the same report has sent a claim (5.8). That a
card still CHECKING when another serial is completed leaves the candidate absent is log 18; that a card which pays
inside a report showing zone 0 leaves the hang-up to METERED is log 15. The new pulses of a zone 15 call add to the
amount, at the rate of the card held or at the rate used, before the card fields are taken; above 255 they cut the call
CUT-OTHER, and with no usable entry CUT-BARRED, the candidate of a claim answered WAIT being dropped (5.8, 5.9). That
the rest of such a report is taken in CUT at once is the model's choice (log 35). A CUT from a call on a card settles a
card that leaves and forgets a refused one, and zone 0 ends it in HELD, CHECKING, REFUSED, READING or VACANT (5.9);
that a claim outstanding includes an abandoned one is log 17. A CUT from an unpaid call ends at zone 0 in VACANT,
REFUSED or READING (4.7). -/
def Obligations.ReportsInGraceAndCut : Prop :=
  ∀ (s : State) (l : LineIx) (k : Fin 8) (bits : BitVec 38), s.hears l k bits →
    let p := posOf l k
    let c := s.ctx p
    let present := bits.getLsbD 30
    let zone := bits.extractLsb' 9 4
    let pulse := bits.extractLsb' 5 4
    let h := c.heard bits
    let met := c.completes bits
    let leaves (d : Position) : Prop := s.closes l k (s.withCtx p d)
    let sends (x : Serial) (d : Position) : Prop := s.closes l k ((s.withCtx p d).sendClaim p x)
    let rests (d : Position) (state : PosState) (order : Order) : Position :=
      { d with state := state, call := none, order := order }
    -- a claim is sent in GRACE by a report showing zone 0, which ends the call in the state that the claim left
    let ends (u : State) : Prop :=
      let d := u.ctx p
      s.closes l k (u.withCtx p (match d.state, d.call.map Call.sub with
        | .metered, _ => rests d .held (.plain .accepted d.working)
        | .grace, some .reading => rests d .reading (.plain .none 0)
        | .grace, some .checking => rests d (if d.outstanding = none then .waiting else .checking) (.plain .wait 0)
        | .grace, some .refused => rests d .refused d.showsRefusal
        | _, _ => d))
    (∀ q, c.state = .grace → c.call = some q → q.zone ≠ 15 ∨ q.lastPulse = some pulse →
      let moves (d : Position) (sub : SubState) : Position :=
        { d with call := some { q with sub := sub }, order := .plain .grace q.amount }
      (∀ held, q.sub = .old → c.claim = some held →
        (present = false → zone ≠ 0 → ∃ u, s.settles u p held (moves h.emptied .absent) ∧ s.closes l k u) ∧
        (present = false → zone = 0 → ∃ u,
          s.settles u p held (rests h.emptied .vacant (.plain .none 0)) ∧ s.closes l k u) ∧
        (∀ x, met = some x → x ≠ held.serial → zone ≠ 0 → ∃ u,
          s.settles u p held (moves h.emptied .old) ∧ s.closes l k (u.sendClaim p x)) ∧
        (∀ x, met = some x → x ≠ held.serial → zone = 0 → ∃ u,
          s.settles u p held (moves h.emptied .old) ∧ ends (u.sendClaim p x)) ∧
        (present = true → met = none ∨ met = some held.serial →
          (zone ≠ 0 → leaves h) ∧ (zone = 0 → leaves (rests h .held (.plain .accepted c.working))))) ∧
      (q.sub = .absent →
        (present = false → (zone ≠ 0 → leaves h) ∧ (zone = 0 → leaves (rests h .vacant (.plain .none 0)))) ∧
        (present = true → (zone ≠ 0 → leaves (moves h .reading)) ∧
          (zone = 0 → leaves (rests h .reading (.plain .none 0))))) ∧
      (q.sub = .reading →
        (present = false → (zone ≠ 0 → leaves (moves h .absent)) ∧
          (zone = 0 → leaves (rests h .vacant (.plain .none 0)))) ∧
        (present = true → met = none → (zone ≠ 0 → leaves h) ∧
          (zone = 0 → leaves (rests h .reading (.plain .none 0)))) ∧
        ∀ x, met = some x → (zone ≠ 0 → sends x h) ∧ (zone = 0 → ends ((s.withCtx p h).sendClaim p x))) ∧
      (q.sub = .checking →
        let gone : Position := { h.abandoned with candidate := none }
        (present = false → (zone ≠ 0 → leaves (moves gone .absent)) ∧
          (zone = 0 → leaves (rests gone .vacant (.plain .none 0)))) ∧
        (∀ x, met = some x → c.candidate ≠ some x →
          (zone ≠ 0 → leaves (moves { gone with highHalf := none } .reading)) ∧
          (zone = 0 → leaves (rests { gone with highHalf := none } .reading (.plain .none 0)))) ∧
        (present = true → met = none ∨ met = c.candidate → c.outstanding ≠ none →
          (zone ≠ 0 → leaves h) ∧ (zone = 0 → leaves (rests h .checking (.plain .wait 0)))) ∧
        ∀ x, present = true → met = none ∨ met = some x → c.outstanding = none → c.candidate = some x →
          (zone ≠ 0 → sends x h) ∧ (zone = 0 → ends ((s.withCtx p h).sendClaim p x))) ∧
      (q.sub = .refused →
        (present = false → (zone ≠ 0 → leaves (moves h.unrefused .absent)) ∧
          (zone = 0 → leaves (rests h.unrefused .vacant (.plain .none 0)))) ∧
        (∀ x, met = some x → c.refusedSerial ≠ some x →
          let d : Position := { h.unrefused with order := .plain .none 0 }
          (zone ≠ 0 → sends x d) ∧ (zone = 0 → ends ((s.withCtx p d).sendClaim p x))) ∧
        (present = true → met = none ∨ (met = c.refusedSerial) →
          (zone ≠ 0 → leaves h) ∧ (zone = 0 → leaves (rests h .refused c.showsRefusal))))) ∧
    (∀ q v, c.state = .grace → c.call = some q → q.zone = 15 → q.lastPulse = some v → pulse ≠ v →
      -- the pulses leave the state `u`, from which the rest of the report is taken
      let follows (u : State) : Prop := exec (.slotWindowClose l) s = exec (.slotWindowClose l) u ∧
        (q.sub = .old → ∀ held, c.claim = some held → present = true → met = none ∨ met = some held.serial →
          zone ≠ 0 → s.closes l k (u.withCtx p ((u.ctx p).heard bits)))
      let cut (w : Verdict) : Position := { c with
        state := .cut, call := none, order := .plain w 0
        candidate := if q.sub = .checking ∧ c.outstanding = none then none else c.candidate }
      (s.entryInForce 15 = none → follows
        { s.withCtx p (cut .cutBarred) with attention := s.attentionAfterRead 15 }) ∧
      ∀ e, s.entryInForce 15 = some e →
        let n := (pulse - v).toNat
        let rate := match c.claim with
          | some held => e.rateFor held.cls
          | none => q.rateUsed
        let first : Fin 4 := if rate = q.rateUsed then q.phase else 0
        let amount := q.amount + ((List.range n).map fun i => rateCharge rate (first + Fin.ofNat 4 i)).sum
        (255 < amount → follows (s.withCtx p (cut .cutOther))) ∧
        (amount ≤ 255 → follows (s.withCtx p { c with
          order := if q.sub = .refused then c.order else .plain .grace amount
          call := some { q with
            amount := amount, lastPulse := some pulse, rateUsed := rate, interval := e.interval.toNat
            phase := first + Fin.ofNat 4 n } }))) ∧
    (c.state = .cut → c.call = none → c.order.verdict ≠ .cutUnpaid →
      -- the state to which zone 0 ends the cut, with a card present that is not held
      let ended (d : Position) : Position :=
        if d.outstanding ≠ none then rests d .checking (.plain .wait 0)
        else if d.refusedSerial ≠ none then rests d .refused d.showsRefusal
        else rests d .reading (.plain .none 0)
      (∀ held, c.claim = some held →
        (present = false → zone ≠ 0 → ∃ u, s.settles u p held h.emptied ∧ s.closes l k u) ∧
        (present = false → zone = 0 → ∃ u,
          s.settles u p held (rests h.emptied .vacant (.plain .none 0)) ∧ s.closes l k u) ∧
        (∀ x, met = some x → x ≠ held.serial →
          (zone ≠ 0 → ∃ u, s.settles u p held h.emptied ∧ s.closes l k u) ∧
          (zone = 0 → ∃ u, s.settles u p held (ended h.emptied) ∧ s.closes l k u)) ∧
        (present = true → met = none ∨ met = some held.serial → (zone ≠ 0 → leaves h) ∧
          (zone = 0 → leaves (rests h .held (.plain .accepted c.working))))) ∧
      (c.claim = none →
        (present = false →
          let gone : Position := { h.unrefused.abandoned with candidate := none }
          (zone ≠ 0 → leaves gone) ∧ (zone = 0 → leaves (rests gone .vacant (.plain .none 0)))) ∧
        (present = true → met = none → (zone ≠ 0 → leaves h) ∧ (zone = 0 → leaves (ended h))) ∧
        ∀ x, met = some x →
          let d := if c.refusedSerial = some x then h else h.unrefused
          let after := if c.outstanding ≠ none ∧ c.candidate ≠ some x then { d.abandoned with candidate := none }
            else d
          (zone ≠ 0 → leaves after) ∧ (zone = 0 → leaves (ended after)))) ∧
    (c.state = .cut → c.call = none → c.order.verdict = .cutUnpaid →
      let other := present = false ∨ (met ≠ none ∧ met ≠ c.refusedSerial)
      (other → (zone ≠ 0 → leaves h.unrefused) ∧ (zone = 0 →
        leaves (rests h.unrefused (if present then .reading else .vacant) (.plain .none 0)))) ∧
      (¬other → (zone ≠ 0 → leaves h) ∧ (zone = 0 →
        leaves (if c.refusedSerial ≠ none then rests h .refused c.showsRefusal
          else rests h .reading (.plain .none 0)))))

/-! ### The attention unit -/

/-- The four attention frames in RUNNING, with the flags, the enable bits and the mode in their data, and no
latch needed (8.9, 11.2). The fourteen words of READ ATTENTION DETAIL begin with READ ATTENTION's data, and the fields of
a clear flag are 0 (11.3). The end of an ATTN pulse: the next counted pulse begins at once, and the count falls by 1;
without one ATTN is driven no longer (9.1). While no pulse is driven the event does not occur (log 6). -/
def Obligations.AttentionFrames : Prop :=
  (∀ s : State, s.serves →
     (∀ f : Flag, s.attention.flags.getLsbD f.bit = s.attention.isSet f) ∧
     exec .readAttention s = .next (s.replied .ok (0#1 ++
       (if s.attention.mode = .pulse then 1#1 else 0#1) ++ s.attention.mask ++ s.attention.flags)) ∧
     (∀ mask : BitVec 7, ∃ t, exec (.clearAttention mask) s = .next t ∧
       t = { s with attention := t.attention, port := s.port.answered .ok (t.attention.flags.setWidth 16) } ∧
       (∀ f : Flag, t.attention.isSet f = (s.attention.isSet f && !mask.getLsbD f.bit)) ∧
       t.attention = { s.attention with
         hotCard := if mask.getLsbD 0 then none else s.attention.hotCard
         storeFault := if mask.getLsbD 1 then none else s.attention.storeFault
         lineFault := if mask.getLsbD 2 then none else s.attention.lineFault
         positionLost := if mask.getLsbD 3 then none else s.attention.positionLost
         tariffFault := if mask.getLsbD 4 then none else s.attention.tariffFault
         takingsFull := s.attention.takingsFull && !mask.getLsbD 5
         admission := if mask.getLsbD 6 then none else s.attention.admission }) ∧
     (∀ (pulse : Bool) (mask : BitVec 7), exec (.setAttentionMode pulse mask) s = .next { s with
       attention := { s.attention with
         mask := mask, mode := if pulse then .pulse else .level
         pulses := if pulse ∧ s.attention.mode = .pulse then s.attention.pulses else 0
         driving := pulse && decide (s.attention.mode = .pulse) && s.attention.driving }
       port := s.port.answered .ok (0#8 ++ BitVec.ofBool pulse ++ mask) }) ∧
     ∃ words : List Word, words.length = 14 ∧ exec .readAttentionDetail s = .next { s with port :=
         { s.port.answered .ok 14 with buffer := words, pointer := 0 } } ∧
       words[0]? = some (0#1 ++ (if s.attention.mode = .pulse then 1#1 else 0#1) ++ s.attention.mask ++
         s.attention.flags) ∧
       (s.attention.hotCard = none → words[1]? = some 0 ∧ words[2]? = some 0 ∧ words[3]? = some 0) ∧
       (s.attention.storeFault = none → words[4]? = some 0 ∧ words[5]? = some 0) ∧
       (s.attention.tariffFault = none → words[10]? = some 0) ∧
       (∀ x p, s.attention.hotCard = some (x, p) →
         words[1]? = some (x.extractLsb' 16 16) ∧ words[2]? = some (x.extractLsb' 0 16) ∧
         words[3]? = some (BitVec.ofNat 16 (p.val + 1))) ∧
       (∀ f ∈ s.attention.storeFault, words[4]? = some (BitVec.ofNat 16 f.slot.val) ∧
         (f.cause = none → words[5]? = some 0x8000#16) ∧
         ∀ kind origin, f.cause = some (kind, origin) →
           words[5]? = some (0#6 ++ kind.code ++ 0#6 ++ origin.code)) ∧
       words[6]? = some ((s.attention.lineFault.getD 0).setWidth 16) ∧
       (∀ p : Pos, ∃ w, words[7 + p.val / 16]? = some w ∧
         w.getLsbD (p.val % 16) = (s.attention.positionLost.getD 0).getLsbD p.val) ∧
       (∀ zone band, s.attention.tariffFault = some (zone, band) → words[10]? = some (0#10 ++ zone ++ band)) ∧
       words[11]? = some (BitVec.ofNat 16 (s.attention.admission.getD 0)) ∧
       words[12]? = some (BitVec.ofNat 16 s.engine.corrected) ∧
       words[13]? = some (BitVec.ofNat 16 s.dir.orphans)) ∧
  ∀ s : State, s.pins.released = true →
    (s.attention.mode = .pulse → s.attention.driving = true →
      exec .attnPulseEnd s = .next { s with attention := { s.attention with
        driving := decide (0 < s.attention.pulses), pulses := s.attention.pulses - 1 } }) ∧
    (s.attention.mode = .level ∨ s.attention.driving = false → exec .attnPulseEnd s = .next s)

/-- The seven attention events and ATTN: each sets its own flag with its detail and no other, HOT CARD the latest
sighting, STORE FAULT and TARIFF FAULT the latest fault, LINE FAULT and POSITION LOST the line or position beside those
set before, ADMISSION its count, which stops at 65,535. In PULSE mode an event that finds its flag clear and enabled
gives one pulse, driven at once when none is, else counted up to 7; every other event gives none. ATTN is the pulse
driven in PULSE mode, follows the enabled flags in LEVEL mode, and is inactive while a reset lasts (9.1). -/
def Obligations.EventsSetFlagsAndGivePulses : Prop :=
  (∀ s : State, s.attention.legal →
    -- the state after an event of flag `f` that makes the flags `set`
    let after (f : Flag) (set : Attention) : State := { s with
      attention := if s.attention.mode = .pulse ∧ s.attention.isSet f = false ∧ s.attention.mask.getLsbD f.bit = true then
          { set with driving := true, pulses := if s.attention.driving then min 7 (s.attention.pulses + 1) else 0 }
        else set }
    (∀ x p, s.raiseHotCard x p = after .hotCard { s.attention with hotCard := some (x, p) }) ∧
    (∀ x cause, s.raiseStoreFault x cause =
      after .storeFault { s.attention with storeFault := some { slot := x, cause := cause } }) ∧
    (∀ l : LineIx, ∃ set : BitVec 6,
      s.raiseLineFault l = after .lineFault { s.attention with lineFault := some set } ∧
      ∀ m : LineIx, set.getLsbD m.val =
        (decide (m = l) || s.attention.lineFault.any fun before => before.getLsbD m.val)) ∧
    (∀ p : Pos, ∃ set : BitVec 48,
      s.raisePositionLost p = after .positionLost { s.attention with positionLost := some set } ∧
      ∀ q : Pos, set.getLsbD q.val =
        (decide (q = p) || s.attention.positionLost.any fun before => before.getLsbD q.val)) ∧
    (∀ zone band, s.raiseTariffFault zone band =
      after .tariffFault { s.attention with tariffFault := some (zone, band) }) ∧
    s.raiseTakingsFull = after .takingsFull { s.attention with takingsFull := true } ∧
    (s.attention.admission = none → s.raiseAdmission = after .admission { s.attention with admission := some 1 }) ∧
    ∀ n, s.attention.admission = some n → s.raiseAdmission =
      after .admission { s.attention with admission := some (if n < 65535 then n + 1 else 65535) }) ∧
  ∀ s : State, (s.pins.released = false → s.attn = false) ∧
    (s.pins.released = true → s.attention.mode = .pulse → s.attn = s.attention.driving) ∧
    (s.pins.released = true → s.attention.mode = .level →
      (s.attn = true ↔ ∃ f : Flag, s.attention.isSet f = true ∧ s.attention.mask.getLsbD f.bit = true))

/-! ### Cards, slots and regions -/

/-- Lookups: by serial through the bucket of 2.2, by slot over all entries; where no serial is indexed twice the
answer is the one entry that holds the serial; and the three buckets of the example of 2.2. -/
def Obligations.LookupsFindTheEntry : Prop :=
  (∀ s : State, (s.dir.entries.map DirEntry.serial).Nodup →
    (∀ x e, s.lookup x = some e ↔ e ∈ s.dir.entries ∧ e.serial = x) ∧
    ∀ x, s.lookup x = none ↔ ∀ e ∈ s.dir.entries, e.serial ≠ x) ∧
  (∀ s : State, (s.dir.entries.map DirEntry.slot).Nodup →
    ∀ x e, s.bySlot x = some e ↔ e ∈ s.dir.entries ∧ e.slot = x) ∧
  (∀ x : Serial, bucket x = (x ^^^ (x >>> 10) ^^^ (x >>> 20)).toNat % 1024) ∧
  bucket 305419896 = 590 ∧ bucket 1000 = 1000 ∧ bucket 1024000 = 1000

/-- ISSUE with the latch set: its tests in their order, and the slot, the entry and the image of the card it
issues (8.7, 1.9, 2.7, 1.4). -/
def Obligations.IssueTestsAndIssues : Prop :=
  ∀ s : State, s.armed →
    let g := s.port.staging
    let bad := g.serial = 0 ∨ g.serial = 4294967295#32 ∨ g.value = 0 ∨ 50000 < g.value.toNat
    (bad → exec .issue s = .next (s.repliedLatched .range 0)) ∧
    (¬bad → ∀ e, s.lookup g.serial = some e → exec .issue s = .next (s.repliedLatched .exists 0)) ∧
    (¬bad → s.lookup g.serial = none →
      (s.engine.locks = 0xFFFF#16 → exec .issue s = .next (s.repliedLatched .locked 0)) ∧
      (s.engine.locks ≠ 0xFFFF#16 → (∀ x ∈ s.dir.free, s.slotLocked x = true) →
        exec .issue s = .next (s.repliedLatched .storeFull 0)) ∧
      ∀ before x after, s.dir.free = before ++ x :: after → (∀ y ∈ before, s.slotLocked y = true) →
        s.slotLocked x = false → x ∉ before → x ∉ after →
        (96 < s.engine.waiting.length + 1 + s.unqueuedClaims + 1 →
          exec .issue s = .next (s.repliedLatched .queueFull 0)) ∧
        (s.engine.waiting.length + 1 + s.unqueuedClaims + 1 ≤ 96 → exec .issue s = .next { s with
          dir := { s.dir with
            free := before ++ after
            entries := s.dir.entries ++ [{
              serial := g.serial, slot := x, cls := g.cls, condition := .issuing, claimedBy := none
              live := none }]
            claims := s.dir.claims.map fun c => if c.slot = x then { c with appeared := true } else c }
          engine := { s.engine with waiting := s.engine.waiting ++ [{
            slot := x, attempts := 0, origin := .host
            work := .issue
              { serial := g.serial, cls := g.cls, faceValue := g.value.toNat
                issueDay := if s.tariff.daySet ∧ s.tariff.timeSet then s.tariff.day else 0 }
              { state := .fresh, balance := g.value.toNat, expiry := g.expiry, useCount := 0
                lastPosition := none, lastUseDay := 0 } }] }
          port := s.port.answeredLatched .ok (BitVec.ofNat 16 x.val) }))

/-- RETIRE and ERASE SLOT with the latch set: their tests in their order, and the entry that erases (8.7, 2.7,
7.5). -/
def Obligations.RetireAndEraseSlotQueueAnErase : Prop :=
  ∀ s : State, s.armed →
    let room := s.engine.waiting.length + 1 + s.unqueuedClaims + 1 ≤ 96
    let joined (x : Slot) (work : Work) (d : Directory) : State := { s with
      dir := { d with
        claims := s.dir.claims.map fun c => if c.slot = x then { c with appeared := true } else c }
      engine := { s.engine with
        waiting := s.engine.waiting ++ [{ work := work, slot := x, attempts := 0, origin := .host }] }
      port := s.port.answeredLatched .ok (BitVec.ofNat 16 x.val) }
    (∀ e, s.lookup s.port.staging.serial = some e →
      let claimed := e.claimedBy ≠ none ∨ ∃ c ∈ s.dir.claims, c.serial = e.serial
      (s.slotLocked e.slot = true → exec .retire s = .next (s.repliedLatched .locked 0)) ∧
      (s.slotLocked e.slot = false → claimed → exec .retire s = .next (s.repliedLatched .inUse 0)) ∧
      (s.slotLocked e.slot = false → ¬claimed → s.hasEntry e.slot = true →
        exec .retire s = .next (s.repliedLatched .pending 0)) ∧
      (s.slotLocked e.slot = false → ¬claimed → s.hasEntry e.slot = false → ¬room →
        exec .retire s = .next (s.repliedLatched .queueFull 0)) ∧
      (s.slotLocked e.slot = false → ¬claimed → s.hasEntry e.slot = false → room →
        exec .retire s = .next (joined e.slot .retire { s.dir with
          entries := s.dir.entries.filter fun d => d.slot ≠ e.slot, orphans := s.dir.orphans + 1 }))) ∧
    (let x := s.port.staging.slot
      let orphan := (∀ e ∈ s.dir.entries, e.slot ≠ x) ∧ x ∉ s.dir.free
      let erasing := x ∈ s.engine.erasing
      (s.slotLocked x = true → exec .eraseSlot s = .next (s.repliedLatched .locked 0)) ∧
      (s.slotLocked x = false → erasing → exec .eraseSlot s = .next (s.repliedLatched .pending 0)) ∧
      (s.slotLocked x = false → ¬erasing → ¬orphan →
        exec .eraseSlot s = .next (s.repliedLatched .badState 0)) ∧
      (s.slotLocked x = false → ¬erasing → orphan → ¬room →
        exec .eraseSlot s = .next (s.repliedLatched .queueFull 0)) ∧
      (s.slotLocked x = false → ¬erasing → orphan → room →
        exec .eraseSlot s = .next (joined x .eraseSlot s.dir)))

/-- The tests that CREDIT, SET EXPIRY, BLOCK, UNBLOCK and RETIRE share, with the latch set: an unindexed serial,
a locked region, an ISSUING record and a record without a live copy; and CREDIT of 0 and the claims that CREDIT
and SET EXPIRY meet. A claim in flight stops no BLOCK, and no claim stops an UNBLOCK (8.7, 1.9, 2.6). -/
def Obligations.CardActionRefusals : Prop :=
  ∀ s : State, s.armed →
    (s.port.staging.value = 0 → exec .credit s = .next (s.repliedLatched .range 0)) ∧
    (∀ c ∈ [Instr.credit, .setExpiry, .block, .unblock, .retire],
      s.lookup s.port.staging.serial = none → (c = .credit → s.port.staging.value ≠ 0) →
        exec c s = .next (s.repliedLatched .unknownCard 0)) ∧
    ∀ e, s.lookup s.port.staging.serial = some e →
      (s.slotLocked e.slot = true → ∀ c ∈ [Instr.credit, .setExpiry, .block, .unblock],
        (c = .credit → s.port.staging.value ≠ 0) → exec c s = .next (s.repliedLatched .locked 0)) ∧
      (s.slotLocked e.slot = false → e.claimedBy ≠ none ∨ (∃ c ∈ s.dir.claims, c.serial = e.serial) →
        ∀ c ∈ [Instr.credit, .setExpiry], (c = .credit → s.port.staging.value ≠ 0) →
          exec c s = .next (s.repliedLatched .inUse 0)) ∧
      (s.slotLocked e.slot = false →
        ∀ c ∈ [Instr.credit, .setExpiry, .block, .unblock], (c = .credit → s.port.staging.value ≠ 0) →
          (c = .credit ∨ c = .setExpiry → e.claimedBy = none ∧ ∀ d ∈ s.dir.claims, d.serial ≠ e.serial) →
          (c = .block → e.claimedBy = none) →
          (e.condition = .issuing → exec c s = .next (s.repliedLatched .pending 0)) ∧
          (e.condition ≠ .issuing → e.live = none → exec c s = .next (s.repliedLatched .badState 0)))

/-- CREDIT, SET EXPIRY, BLOCK and UNBLOCK of a card whose newest image is in the queue: what each builds of it,
with what data, and what each refuses. CREDIT and SET EXPIRY are stated of a card without a claim, BLOCK also with a
claim in flight, and UNBLOCK, which makes no claim test, whatever claims stand (8.7, 1.6, 1.7, 2.6). SET EXPIRY leaves the state as it is at balance
0 too, as 1.7 and 8.7 say; that 1.6's sentence on every image of balance 0 gives way there is log 28. -/
def Obligations.CardActionsBuildOnTheNewestImage : Prop :=
  ∀ (s : State) (e : DirEntry) (i : Image), s.armed → s.lookup s.port.staging.serial = some e →
    s.slotLocked e.slot = false → e.condition ≠ .issuing → e.live ≠ none → s.queuedImage e.slot = some i →
    let free := e.claimedBy = none ∧ ∀ c ∈ s.dir.claims, c.serial ≠ e.serial
    let g := s.port.staging
    let sum := i.balance + g.value.toNat
    -- the image joins the queue, or replaces that of the waiting VALUE entry, or finds no room
    let queued (c : Instr) (image : Image) (data : Word) : Prop :=
      (s.hasWaitingValue e.slot = true → exec c s = .next { s with
        engine := { s.engine with waiting := s.engine.waiting.map fun w =>
          if w.isValue = true ∧ w.slot = e.slot then { w with work := .value image, origin := .host }
          else w }
        port := s.port.answeredLatched .ok data }) ∧
      (s.hasWaitingValue e.slot = false → s.engine.waiting.length + 1 + s.unqueuedClaims + 1 ≤ 96 →
        exec c s = .next { s with
          dir := { s.dir with
            claims := s.dir.claims.map fun c => if c.slot = e.slot then { c with appeared := true } else c }
          engine := { s.engine with waiting := s.engine.waiting ++
            [{ work := .value image, slot := e.slot, attempts := 0, origin := .host }] }
          port := s.port.answeredLatched .ok data }) ∧
      (s.hasWaitingValue e.slot = false → 96 < s.engine.waiting.length + 1 + s.unqueuedClaims + 1 →
        exec c s = .next (s.repliedLatched .queueFull 0))
    (free → g.value ≠ 0 → 50000 < sum → exec .credit s = .next (s.repliedLatched .range 0)) ∧
    (free → g.value ≠ 0 → sum ≤ 50000 → queued .credit
      { i with balance := sum, state := if i.state = .empty then .active else i.state }
      (BitVec.ofNat 16 sum)) ∧
    (free → queued .setExpiry { i with expiry := g.expiry } g.expiry) ∧
    (e.claimedBy = none → i.state = .blocked → exec .block s = .next (s.repliedLatched .ok 3)) ∧
    (e.claimedBy = none → i.state ≠ .blocked → queued .block { i with state := .blocked } 3) ∧
    (i.state ≠ .blocked → exec .unblock s = .next (s.repliedLatched .badState 0)) ∧
    (i.state = .blocked → i.balance = 0 → queued .unblock { i with state := .empty } 2) ∧
    (i.state = .blocked → i.balance ≠ 0 → i.useCount = 0 → queued .unblock { i with state := .fresh } 0) ∧
    (i.state = .blocked → i.balance ≠ 0 → i.useCount ≠ 0 → queued .unblock { i with state := .active } 1)

/-- BLOCK of a card that a position holds acts through the position: its working image is settled BLOCKED, its
claim released, and HELD goes to REFUSED and METERED, GRACE and CUT to CUT-BLOCKED (5.10, 8.7). -/
def Obligations.BlockOfAClaimedCard : Prop :=
  ∀ (s : State) (e : DirEntry) (p : Pos) (k : Claim), s.armed → s.ordersCurrent →
    s.lookup s.port.staging.serial = some e → s.slotLocked e.slot = false → e.claimedBy = some p →
    (s.ctx p).claim = some k → k.slot = e.slot →
    (s.ctx p).state ∈ [PosState.held, .metered, .grace, .cut] →
    ∃ t, exec .block s = .next t ∧ s.onlySettles t [k.slot] ∧ t.attention = s.attention ∧ t.lines = s.lines ∧
      t.port = s.port.answeredLatched .ok 3 ∧ (∀ q, q ≠ p → t.ctx q = s.ctx q) ∧
      t.queues k.slot { k.image with balance := (s.ctx p).working, state := .blocked } ∧ t.free k.slot ∧
      (t.ctx p).claim = none ∧ (t.ctx p).working = 0 ∧ (t.ctx p).debited = 0 ∧
      (t.ctx p).claimBalance = 0 ∧ (t.ctx p).refusedSerial = some k.serial ∧
      (t.ctx p).refusedVerdict = .refusedBlocked ∧ (t.ctx p).refusedBalance = 0 ∧
      ((s.ctx p).state = .held → (t.ctx p).state = .refused ∧
        (t.ctx p).order = { verdict := .refusedBlocked, warn := false, shown := 0 }) ∧
      ((s.ctx p).state ≠ .held → (t.ctx p).state = .cut ∧ (t.ctx p).call = none ∧
        (t.ctx p).order = { verdict := .cutBlocked, warn := false, shown := 0 })

/-- An action whose newest image, or whose identity granule, must be read asks the store engine for it and
waits: the held reply becomes NO REPLY with data 1, the latch stays, and nothing else changes but the step that the
read suspends: also BLOCK while a claim of the card is in flight, and UNBLOCK whatever claims stand (8.2, 8.5, 8.7, 2.6). That a query reads the identity granule first is log 22. A read suspends a running
step where it stands, with its progress kept, and its target reads bad while erased or programmed, blank once
erased, and in its verify what the verify will find; a suspended step stays as it is (7.1). Where it stands is a
free value, no earlier than it was known to have come (log 11). -/
def Obligations.ActionsWaitForTheStore : Prop :=
  (∀ (s : State) (e : DirEntry),
    let waits (kind : ActionKind) (stage : ActionStage) (granule : GranuleName) : State :=
      let request : ReadRequest := { who := .host, slot := e.slot, granule := granule }
      let u := if s.engine.reading.isSome then s else s.suspend
      { u with
        engine :=
          if s.engine.reading.isSome then { s.engine with readList := s.engine.readList ++ [request] }
          else { u.engine with reading := some request }
        port := { s.port with
          transfer := none, ownerMark := true, reply := { code := .noReply, data := 1 }
          result := .working { kind := kind, serial := e.serial, slot := e.slot, stage := stage,
                               appeared := false } } }
    (s.armed → s.lookup s.port.staging.serial = some e → s.slotLocked e.slot = false → e.condition ≠ .issuing →
      s.queuedImage e.slot = none → ∀ copy generation, e.live = some (copy, generation) →
        let free := e.claimedBy = none ∧ ∀ c ∈ s.dir.claims, c.serial ≠ e.serial
        (free → s.port.staging.value ≠ 0 → exec .credit s = .next (waits .credit (.live none) copy.granule)) ∧
        (free → exec .setExpiry s = .next (waits .setExpiry (.live none) copy.granule)) ∧
        (e.claimedBy = none → exec .block s = .next (waits .block (.live none) copy.granule)) ∧
        exec .unblock s = .next (waits .unblock (.live none) copy.granule)) ∧
    (s.serves → e.condition ≠ .issuing →
      (s.lookup s.port.staging.serial = some e →
        exec .queryCard s = .next (waits .queryCard .identity .identity)) ∧
      (s.bySlot s.port.staging.slot = some e →
        exec .querySlot s = .next (waits .querySlot .identity .identity)))) ∧
  (∀ s : State, s.engine.flight = none ∨ s.engine.suspended = true → s.suspend = s) ∧
  ∀ (s : State) (f : Flight), storeWf s.store = true → s.engine.sound → s.engine.flight = some f →
    s.engine.suspended = false → ∃ p : Progress,
      s.suspend = { s with
        store := s.suspend.store, moments := s.moments + 1
        engine := { s.engine with suspended := true, flight := some { f with progress := p } } } ∧
      f.progress.place ≤ p.place ∧ (p = f.progress → s.suspend.store = s.store) ∧
      (∀ y, y ≠ f.entry.slot → s.suspend.record y = s.record y) ∧
      (p ≠ f.progress →
        let old := s.record f.entry.slot
        let new := s.suspend.record f.entry.slot
        (∀ copy g, f.step = .writeValue copy g →
          new.identity = old.identity ∧ new.copy copy.other = old.copy copy.other ∧
          (p = .erased copy.granule → new.copy copy = .blank) ∧
          (p = .programming → new.copy copy = .damaged) ∧
          ∀ left, p = .verifying left → new.copy copy = left.copy copy) ∧
        (f.step = .erase ∨ f.step = .issueErase →
          (p = .erased .identity → new = { old with identity := .blank }) ∧
          (p = .erasing .copyA → new = { old with identity := .blank, copyA := .damaged }) ∧
          (p = .erased .copyA → new = { old with identity := .blank, copyA := .blank }) ∧
          (p = .erasing .copyB → new = { identity := .blank, copyA := .blank, copyB := .damaged }) ∧
          (p = .erased .copyB → new = { identity := .blank, copyA := .blank, copyB := .blank }) ∧
          ∀ left, p = .verifying left → new = left))

/-- QUERY CARD of an unindexed serial and of an ISSUING record, and QUERY SLOT of a free and of an orphan slot,
are answered at once (8.7, 11.3). The twelve words of a query (11.3): every field at its place, 0 where it was
unreadable, and the marks. -/
def Obligations.QueriesAndTheirWords : Prop :=
  (∀ s : State, s.serves →
     let loaded (words : List Word) (data : Word) : State := { s with port :=
       { s.port.answered .ok data with buffer := words, pointer := 0 } }
     let x := s.port.staging.slot
     (s.lookup s.port.staging.serial = none → exec .queryCard s = .next (s.replied .unknownCard 0)) ∧
     (∀ e identity image, s.lookup s.port.staging.serial = some e → e.condition = .issuing →
       s.issueEntry e.slot = some (identity, image) →
       exec .queryCard s = .next (loaded (e.words (some identity) (some image)) 12)) ∧
     (s.bySlot x = none → x ∈ s.dir.free →
       exec .querySlot s = .next (loaded [BitVec.ofNat 16 x.val] 1)) ∧
     (s.bySlot x = none → x ∉ s.dir.free →
       exec .querySlot s = .next (loaded [BitVec.ofNat 16 (16384 + x.val)] 257)) ∧
     ∀ e identity image, s.bySlot x = some e → e.condition = .issuing →
       s.issueEntry e.slot = some (identity, image) →
       exec .querySlot s = .next (loaded
         (BitVec.ofNat 16 (32768 + e.slot.val) :: e.words (some identity) (some image)) 525)) ∧
  (∀ (e : DirEntry) (identity : Option Identity) (image : Option Image),
     ∃ w4 w5 w8 : Word, e.words identity image =
       [e.serial.extractLsb' 16 16, e.serial.extractLsb' 0 16, BitVec.ofNat 16 e.slot.val, w4, w5,
         BitVec.ofNat 16 ((identity.map Identity.faceValue).getD 0),
         (identity.map Identity.issueDay).getD 0, w8,
         BitVec.ofNat 16 ((image.map Image.balance).getD 0), (image.map Image.expiry).getD 0,
         (image.map Image.useCount).getD 0, (image.map Image.lastUseDay).getD 0] ∧
     w4.extractLsb' 14 2 = e.cls.code ∧ w4.extractLsb' 12 2 = e.condition.code ∧
     w4.getLsbD 11 = identity.isNone ∧ w4.getLsbD 10 = image.isNone ∧
     w4.extractLsb' 0 6 = (match e.claimedBy with
       | none => 0
       | some p => BitVec.ofNat 6 (p.val + 1)) ∧
     (e.live = none → w5 = 0x8000#16) ∧
     (∀ copy generation, e.live = some (copy, generation) → w5.getLsbD 15 = false ∧
       w5.getLsbD 8 = decide (copy = .b) ∧ w5.extractLsb' 0 8 = generation) ∧
     (image = none → w8 = 0) ∧
     ∀ i, image = some i → w8.extractLsb' 14 2 = i.state.code ∧
       w8.extractLsb' 0 6 = (match i.lastPosition with
         | none => 0
         | some p => BitVec.ofNat 6 (p.val + 1)))

/-- UNLOCK REGION and LOCK REGION with the latch set: the one region's lock, and the sixteen locks in the data;
a region above 15 is out of range (1.9). -/
def Obligations.RegionLockFrames : Prop :=
  ∀ (s : State) (op : BitVec 20), s.armed →
    (16 ≤ op.toNat → exec (.unlockRegion op) s = .next (s.repliedLatched .range 0) ∧
      exec (.lockRegion op) s = .next (s.repliedLatched .range 0)) ∧
    (op.toNat ≤ 15 → ∀ lock : Bool, ∃ locks : BitVec 16,
      exec (if lock then .lockRegion op else .unlockRegion op) s = .next { s with
        engine := { s.engine with locks := locks }, port := s.port.answeredLatched .ok locks } ∧
      ∀ r, r < 16 → locks.getLsbD r = if r = op.toNat then lock else s.engine.locks.getLsbD r)

/-! ### The array and the store engine -/

/-- What a granule reads and which copy is live: blank and beyond correction, the field checks of 1.1 and the
one corrected cell; what was programmed reads back; and the live copy of 1.4 from the two copies, by their
generations. A read before which cells of its granule have failed completes as it would of the array with those cells,
as held: contents take one cell in error, a second leaves the granule beyond correction, a blank granule is so with its
first or its second, and three and more leave what the operand says (log 10); no other granule changes. It is so too of
the rebuild's read where its request comes with the command (log 31). The spec keeps the cells' layout internal: that they hold the codes of 11.2 and 11.3, so that a class code
3, a state code above 3 and a last position above 48 read bad, is the model's choice (log 10). -/
def Obligations.GranulesReadAndTheLiveCopy : Prop :=
  (readValue .blank = .blank ∧ readValue .damaged = .bad ∧ readIdentity .blank = .blank ∧
    readIdentity .damaged = .bad) ∧
  (∀ (r : RawValue) (inError : Bool),
    ((readValue (.cells r inError)).valid = none ↔
      3 < r.stateCode.toNat ∨ 50000 < r.balance.toNat ∨ 48 < r.lastPosition.toNat) ∧
    ((readValue (.cells r inError)).isCorrected = true ↔
      inError = true ∧ (readValue (.cells r inError)).valid ≠ none)) ∧
  (∀ (r : RawIdentity) (inError : Bool), (readIdentity (.cells r inError)).valid = none ↔
    r.serial = 0 ∨ r.serial = 4294967295#32 ∨ r.classCode = 3 ∨ r.faceValue = 0 ∨ 50000 < r.faceValue.toNat) ∧
  (∀ (i : Image) (g : Gen), i.balance ≤ 50000 → readValue (.cells (i.raw g) false) = .good (i, g)) ∧
  (∀ i : Identity, i.serial ≠ 0 → i.serial ≠ 4294967295#32 → 1 ≤ i.faceValue → i.faceValue ≤ 50000 →
    readIdentity (.cells i.raw false) = .good i) ∧
  (∀ (s : State) (r : ReadRequest) (change : CellChange), s.pins.released = true → storeWf s.store = true →
    s.engine.reading = some r ∨ (s.engine.reading = none ∧ s.dir.rebuild.map Rebuild.request = some r ∧
      ∀ f ∈ s.engine.flight, f.entry.slot ≠ r.slot) →
    -- what the failing cells make of a granule, of which the operand holds `left` in a record
    let changes := fun {α : Type} (old new : Granule α) (left : Record → Granule α) =>
      (change = .asHeld → new = old) ∧
      (change = .oneCellFails → (∀ x, old = .cells x false → new = .cells x true) ∧
        ((∀ x, old ≠ .cells x false) → new = .damaged)) ∧
      (change = .twoCellsFail → new = .damaged) ∧
      ∀ operand, change = .manyCellsFail operand → new = left operand
    ∃ t, exec (.storeReadComplete change) s = exec (.storeReadComplete .asHeld) t ∧
      t = { s with store := t.store } ∧ storeWf t.store = true ∧ (∀ y, y ≠ r.slot → t.record y = s.record y) ∧
      let old := s.record r.slot
      let new := t.record r.slot
      (r.granule = .identity → changes old.identity new.identity Record.identity ∧
        new.copyA = old.copyA ∧ new.copyB = old.copyB) ∧
      (r.granule = .copyA → changes old.copyA new.copyA Record.copyA ∧
        new.identity = old.identity ∧ new.copyB = old.copyB) ∧
      (r.granule = .copyB → changes old.copyB new.copyB Record.copyB ∧
        new.identity = old.identity ∧ new.copyA = old.copyA)) ∧
  ∀ (i j : Image) (a b : Gen),
    ((b - a).toNat ∈ Set.Icc 1 127 → liveOf (some (i, a)) (some (j, b)) = some (.b, j, b)) ∧
    ((b - a).toNat ∉ Set.Icc 1 127 → liveOf (some (i, a)) (some (j, b)) = some (.a, i, a)) ∧
    liveOf (some (i, a)) none = some (.a, i, a) ∧ liveOf none (some (j, b)) = some (.b, j, b) ∧
    liveOf none none = none

/-- The rebuild's reads: a blank slot is free, a bad identity and a serial indexed already make an orphan, and
any other identity is indexed from both its copies, GOOD with the live copy or DAMAGED without one; each goes on
with the next granule or slot, and slot 8,191 makes the directory READY and the mode RUNNING (2.5, 9.5). A record
indexed DAMAGED raises STORE FAULT, with its slot and the mark that a read found it (8.6, 9.1; log 33). A corrected read is counted, and where a copy read
corrected the classified record's refresh, with the live copy's image, joins the queue or finds no room and is dropped
(2.5, 7.6). No other read waits, and the cells are as they were. Between two reads none is in flight, and the engine
goes on with its queue; that the request comes with the completion that ends the read is log 31, and that copy A is
read before copy B log 32. -/
def Obligations.TheRebuildClassifiesSlots : Prop :=
  ∀ (s : State) (x : Slot) (stage : RebuildStage), s.pins.released = true → storeWf s.store = true →
    s.dir.rebuild = some { slot := x, stage := stage } → s.engine.readList = [] →
    s.engine.reading = some { who := .rebuild, slot := x, granule := stage.granule } ∨
      (s.engine.reading = none ∧ s.engine.flight = none) →
    -- the engine goes on, a corrected read counted
    let resumed (corrected : Bool) : Engine := { s.engine with
      reading := none, suspended := false
      corrected := if corrected then min 65535 (s.engine.corrected + 1) else s.engine.corrected }
    let goOnFrom (u : State) (g : Engine) (d : Directory) : Prop := exec (.storeReadComplete .asHeld) s = .next (
      if h : x.val + 1 < 8192 then { u with
        dir := { d with rebuild := some { slot := ⟨x.val + 1, h⟩, stage := .identity } }, engine := g }
      else { u with
        dir := { d with rebuild := none, ready := true }, port := { u.port with mode := .running }, engine := g })
    let goOn := goOnFrom s
    let readOn (g : Engine) (next : RebuildStage) : Prop := exec (.storeReadComplete .asHeld) s = .next { s with
      dir := { s.dir with rebuild := some { slot := x, stage := next } }, engine := g }
    let o := readIdentity (s.record x).identity
    let a := readValue (s.record x).copyA
    let b := readValue (s.record x).copyB
    (stage = .identity → o = .blank → goOn (resumed false) { s.dir with free := s.dir.free ++ [x] }) ∧
    (stage = .identity → o = .bad → goOn (resumed false) { s.dir with orphans := s.dir.orphans + 1 }) ∧
    (∀ i, stage = .identity → o.valid = some i →
      ((s.lookup i.serial).isSome = true →
        goOn (resumed o.isCorrected) { s.dir with orphans := s.dir.orphans + 1 }) ∧
      (s.lookup i.serial = none → readOn (resumed o.isCorrected) (.copyA i))) ∧
    (∀ i, stage = .copyA i → readOn (resumed a.isCorrected) (.copyB i a.valid a.isCorrected)) ∧
    ∀ i first weak, stage = .copyB i first weak →
      let live := liveOf first b.valid
      let indexed : Directory := { s.dir with entries := s.dir.entries ++ [{
        serial := i.serial, slot := x, cls := i.cls, claimedBy := none
        condition := if first = none ∧ b.valid = none then .damaged else .good
        live := live.map fun l => (l.1, l.2.2) }] }
      let g := resumed b.isCorrected
      (live = none → goOnFrom (s.raiseStoreFault x none) g indexed) ∧
      (live ≠ none → (weak || b.isCorrected) = false → goOn g indexed) ∧
      ∀ copy image n, (weak || b.isCorrected) = true → live = some (copy, image, n) → s.port.mode = .starting →
        (∀ w ∈ s.engine.waiting, w.slot ≠ x) → (∀ act, s.port.result = .working act → act.slot ≠ x) →
        (s.engine.waiting.length + 1 + s.unqueuedClaims + 1 ≤ 96 → goOn
          { g with waiting := s.engine.waiting ++
            [{ work := .value image, slot := x, attempts := 0, origin := .refresh }] }
          { indexed with
            claims := s.dir.claims.map fun c => if c.slot = x then { c with appeared := true } else c }) ∧
        (96 < s.engine.waiting.length + 1 + s.unqueuedClaims + 1 → goOn g indexed)

/-- A claim's read of the live copy grants the card: the record is claimed, and the position in CHECKING goes to
HELD with the image, its use count raised and its use fields set; the same read for a CREDIT queues the credited
image and leaves the answer unsent (2.6, 4.4, 8.7, 8.2). The grant of an abandoned claim queues its settlement, with
the use counted and the balance as it was, and releases the record: the position keeps its state (4.4). Nothing else
waits for a read or stands in the queue for the record. -/
def Obligations.ReadsCompleteForClaimsAndActions : Prop :=
  ∀ (s : State) (e : DirEntry) (copy : Copy) (g : Gen) (i : Image), s.pins.released = true →
    storeWf s.store = true → s.port.mode = .running → s.lookup e.serial = some e → e.condition = .good →
    e.claimedBy = none → e.live = some (copy, g) →
    readValue ((s.record e.slot).copy copy) = .good (i, g) → s.queuedImage e.slot = none →
    s.hasWaitingValue e.slot = false → s.engine.readList = [] →
    s.engine.waiting.length + 1 + s.unqueuedClaims + 1 ≤ 96 →
    (∀ p, s.engine.reading = some { who := .claim p, slot := e.slot, granule := copy.granule } →
      s.dir.claims = [{
        serial := e.serial, slot := e.slot, position := p, second := false, appeared := false, held := [] }] →
      s.pins.pwrlow = false → (s.ctx p).state = .checking →
      (s.ctx p).outstanding = some { serial := e.serial, abandoned := false } → i.state ≠ .blocked →
      i.expiry = 0 → i.state ≠ .empty → i.balance ≠ 0 →
      let today := if s.tariff.daySet ∧ s.tariff.timeSet then s.tariff.day else 0
      let granted : Image := { i with
        state := .active, useCount := if i.useCount = 0xFFFF#16 then i.useCount else i.useCount + 1
        lastPosition := some p, lastUseDay := today }
      exec (.storeReadComplete .asHeld) s = .next { s.withCtx p { s.ctx p with
          state := .held, outstanding := none, candidate := none
          claim := some { slot := e.slot, serial := e.serial, cls := e.cls, image := granted }
          claimBalance := i.balance, working := i.balance, debited := 0
          refusedSerial := none, refusedVerdict := .none, refusedBalance := 0
          order := { verdict := .accepted, warn := false, shown := i.balance } } with
        dir := { s.dir with
          claims := []
          entries := s.dir.entries.map fun d => if d.slot = e.slot then { d with claimedBy := some p } else d }
        engine := { s.engine with reading := none, suspended := false } }) ∧
    (s.engine.reading = some { who := .host, slot := e.slot, granule := copy.granule } →
      s.dir.claims = [] →
      s.port.result = .working { kind := .credit, serial := e.serial, slot := e.slot, stage := .live none
                                 appeared := false } →
      i.balance + s.port.staging.value.toNat ≤ 50000 →
      exec (.storeReadComplete .asHeld) s = .next { s with
        engine := { s.engine with
          reading := none, suspended := false
          waiting := s.engine.waiting ++ [{
            slot := e.slot, attempts := 0, origin := .host
            work := .value { i with
              balance := i.balance + s.port.staging.value.toNat
              state := if i.state = .empty then .active else i.state } }] }
        port := { s.port with
          latch := false, result := .unsent
          reply := { code := .ok, data := BitVec.ofNat 16 (i.balance + s.port.staging.value.toNat) } } }) ∧
    (∀ p, s.engine.reading = some { who := .claim p, slot := e.slot, granule := copy.granule } →
      s.dir.claims = [{
        serial := e.serial, slot := e.slot, position := p, second := false, appeared := false, held := [] }] →
      s.pins.pwrlow = false → s.ordersCurrent → (∀ a, s.port.result = .working a → a.slot ≠ e.slot) →
      (s.ctx p).outstanding = some { serial := e.serial, abandoned := true } → i.state = .active →
      i.expiry = 0 → i.balance ≠ 0 →
      exec (.storeReadComplete .asHeld) s = .next { s.withCtx p { s.ctx p with outstanding := none } with
        dir := { s.dir with
          claims := []
          entries := s.dir.entries.map fun d => if d.slot = e.slot then { d with claimedBy := none } else d }
        engine := { s.engine with
          reading := none, suspended := false
          waiting := s.engine.waiting ++ [{
            slot := e.slot, attempts := 0, origin := .position
            work := .value { i with
              useCount := if i.useCount = 0xFFFF#16 then i.useCount else i.useCount + 1
              lastPosition := some p
              lastUseDay := if s.tariff.daySet ∧ s.tariff.timeSet then s.tariff.day else 0 } }] } })

/-- What a claim's read leads to (2.6, 7.6). A noted copy that reads bad or blank asks for the other one, at the tail
of the read list. A valid other copy becomes the live copy noted; where both are bad or blank a GOOD record is DAMAGED
and STORE FAULT names the slot without a cause, and the claim is refused FAULT. The claim completes with the newest
image: an entry's where the queue has one, else the image read; and where an entry has appeared and is gone the live
copy now noted is read afresh, with the watch for an entry begun anew (log 13). A corrected read is counted and offers its refresh first, which the claim then finds in
the queue (log 14). When the claim has been granted every claim held behind it is answered IN USE; when it has not, the
first held claim arrives again, and the others follow by its outcome. Tests and answers are those of the model's
operations stated beside this. -/
def Obligations.ClaimReadsFallBackAndFollow : Prop :=
  (∀ (s : State) (p : Pos) (c : FlightClaim) (e : DirEntry) (copy : Copy),
    s.pins.released = true → storeWf s.store = true → s.claimOf p = some c → s.lookup c.serial = some e →
    s.bySlot c.slot = some e → e.condition ≠ .issuing →
    s.engine.reading = some { who := .claim p, slot := c.slot, granule := copy.granule } →
    let o := readValue ((s.record c.slot).copy copy)
    -- the engine goes on with the next request, or with the step that was suspended
    let served (t : State) : State := { t with engine := { t.engine with
      reading := t.engine.readList.head?, readList := t.engine.readList.tail
      suspended := t.engine.suspended && !t.engine.readList.isEmpty } }
    -- the claim stays in flight, and asks for a copy
    let asks (t : State) (d : FlightClaim → FlightClaim) (next : Copy) : State := { t with
      dir := { t.dir with claims := t.dir.claims.map fun k => if k.position = p then d k else k }
      engine := { t.engine with readList := t.engine.readList ++
        [{ who := .claim p, slot := c.slot, granule := next.granule }] } }
    -- the claim is answered, and the claims held behind it follow
    let completes (t : State) (image : Option Image) : State :=
      let u : State := { t with dir := { t.dir with claims := t.dir.claims.filter fun k => k.position != p } }
      let r := u.completeClaim c.serial p image
      let v := r.1.takeAnswer p r.2
      if r.2.isAccepted then c.held.foldl (fun w q => w.takeAnswer q (.refused .inUse)) v
      else v.retryHeld c.serial c.held
    let ends (t : State) (image : Option Image) : Prop :=
      exec (.storeReadComplete .asHeld) s = .next (served (completes t image))
    (o.valid = none → c.second = false →
      exec (.storeReadComplete .asHeld) s = .next (served (asks s (fun k => { k with second := true }) copy.other))) ∧
    (o.valid = none → c.second = true →
      let t := State.raiseStoreFault c.slot none { s with dir := { s.dir with
        entries := s.dir.entries.map fun d =>
          if d.slot = c.slot ∧ d.condition = .good then { d with condition := .damaged } else d } }
      (s.queuedImage c.slot = none → c.appeared = false → ends t none ∧
        (c.held = [] → exec (.storeReadComplete .asHeld) s = .next (served (State.takeAnswer p (.refused .fault)
          { t with dir := { t.dir with claims := t.dir.claims.filter fun k => k.position != p } })))) ∧
      ∀ j, s.queuedImage c.slot = some j → ends t (some j)) ∧
    (∀ i g, o = .good (i, g) →
      let t : State := if c.second then { s with dir := { s.dir with entries := s.dir.entries.map fun d =>
        if d.slot = c.slot then { d with live := some (copy, g) } else d } } else s
      (s.queuedImage c.slot = none → c.appeared = false → ends t (some i)) ∧
      (∀ j, s.queuedImage c.slot = some j → ends t (some j)) ∧
      ∀ next h, s.queuedImage c.slot = none → c.appeared = true →
        (if c.second then some (copy, g) else e.live) = some (next, h) →
        exec (.storeReadComplete .asHeld) s =
          .next (served (asks t (fun k => { k with second := false, appeared := false }) next))) ∧
    ∀ i g, o = .corrected (i, g) → c.second = false → e.live = some (copy, g) → s.hasEntry c.slot = false →
      s.port.mode ≠ .draining → (∀ a, s.port.result = .working a → a.slot ≠ c.slot) →
      s.engine.waiting.length + 1 + s.unqueuedClaims + 1 ≤ 96 →
      ends { s with
        dir := { s.dir with
          claims := s.dir.claims.map fun k => if k.slot = c.slot then { k with appeared := true } else k }
        engine := { s.engine with
          corrected := min 65535 (s.engine.corrected + 1)
          waiting := s.engine.waiting ++
            [{ work := .value i, slot := c.slot, attempts := 0, origin := .refresh }] } } (some i)) ∧
  ∀ (s : State) (x : Serial) (q : Pos) (rest : List Pos),
    s.retryHeld x [] = s ∧
    ((s.claimArrives x q).2 = some true → s.retryHeld x (q :: rest) =
      rest.foldl (fun w r => w.takeAnswer r (.refused .inUse)) (s.claimArrives x q).1) ∧
    ((s.claimArrives x q).2 = some false → s.retryHeld x (q :: rest) =
      (s.claimArrives x q).1.retryHeld x rest) ∧
    ((s.claimArrives x q).2 = none → ∃ t, t = (s.claimArrives x q).1 ∧ s.retryHeld x (q :: rest) =
      { t with dir := { t.dir with claims := t.dir.claims.map fun k =>
        if k.serial = x then { k with held := k.held ++ rest } else k } })

/-- What the read of an action that waits leads to (8.7, 7.6, 11.3). A noted copy that reads bad or blank asks for the
other; a valid other copy becomes the live copy noted; where both are bad or blank a GOOD record is DAMAGED, STORE FAULT
names the slot without a cause, and BLOCK, UNBLOCK, SET EXPIRY and CREDIT of an unclaimed card are answered BAD STATE,
though an entry has joined meanwhile, from which a query takes the image (log 19). With the image read the four build, queue and answer. Where an entry of the record has appeared meanwhile they take its
image, and their own coalesces into it while it waits; where the entry has appeared and is gone, the live copy now noted
is read afresh, and the watch starts anew (log 13). A claim that has come meanwhile refuses SET EXPIRY and CREDIT IN USE,
and BLOCK of a card that a position has been granted acts through the position (5.10). SET EXPIRY leaves the state as it
is at balance 0 too (log 28). A query reads the identity granule before the live copy (log 22). Its identity read, bad
or blank, makes a GOOD record DAMAGED and raises STORE FAULT in the same way; then the live copy is read, unless the
queue has the image or no copy is live; at the last read the words are loaded, with its marks, and the query answered
OK. Every answer is then unsent, and a latched action clears the latch. -/
def Obligations.HostReadsComplete : Prop :=
  ∀ (s : State) (e : DirEntry) (a : HostAction), s.pins.released = true → storeWf s.store = true →
    s.port.mode = .running → s.port.result = .working a → s.lookup a.serial = some e → a.slot = e.slot →
    (∀ d ∈ s.dir.entries, d.slot = e.slot → d = e) → e.condition ≠ .issuing →
    let query := a.kind = .queryCard ∨ a.kind = .querySlot
    -- the engine goes on with the next request, or with the step that was suspended
    let served (t : State) : State := { t with engine := { t.engine with
      reading := t.engine.readList.head?, readList := t.engine.readList.tail
      suspended := t.engine.suspended && !t.engine.readList.isEmpty } }
    let becomes (t : State) : Prop := exec (.storeReadComplete .asHeld) s = .next (served t)
    -- the action goes on working, as `b`, and asks for a copy
    let asks (t : State) (b : HostAction) (copy : Copy) : State := { t with
      port := { t.port with reply := { code := .noReply, data := 1 }, result := .working b }
      engine := { t.engine with readList := t.engine.readList ++
        [{ who := .host, slot := e.slot, granule := copy.granule }] } }
    -- the live copy is read, with the watch for an entry begun afresh
    let reads (t : State) (identity : Option Identity) (copy : Copy) : State :=
      asks t { a with stage := .live identity, appeared := false } copy
    let answers (t : State) (code : ReplyCode) (data : Word) : State := { t with port := { t.port with
      latch := if query then t.port.latch else false, result := .unsent
      reply := { code := code, data := data } } }
    let damage (t : State) : State := State.raiseStoreFault e.slot none { t with dir := { t.dir with
      entries := t.dir.entries.map fun d =>
        if d.slot = e.slot ∧ d.condition = .good then { d with condition := .damaged } else d } }
    let damaged : DirEntry := { e with condition := if e.condition = .good then .damaged else e.condition }
    -- the words of the query are loaded
    let shows (t : State) (d : DirEntry) (identity : Option Identity) (image : Option Image) : State :=
      let head := if a.kind = .querySlot then [BitVec.ofNat 16 (32768 + e.slot.val)] else []
      let u : State := { t with port := { t.port with pointer := 0, buffer := head ++ d.words identity image } }
      answers u .ok (if a.kind = .querySlot then 525 else 12)
    -- a BLOCK finds the card held by a position, and settles it there
    let through (t : State) : Prop := ∀ p held, a.kind = .block → e.claimedBy = some p →
      (s.ctx p).claim = some held → held.slot = e.slot →
      (s.ctx p).state ∈ [PosState.held, .metered, .grace, .cut] →
      let c := s.ctx p
      ∃ u, becomes (answers u .ok 3) ∧ t.onlySettles u [held.slot] ∧ u.attention = t.attention ∧ u.lines = t.lines ∧
        t.port.onlyMarked u.port ∧ u.free held.slot ∧
        u.queues held.slot { held.image with balance := c.working, state := .blocked } ∧
        u.positions = (s.withCtx p { c.emptied with
          candidate := none, refusedSerial := some held.serial, refusedVerdict := .refusedBlocked
          refusedBalance := 0
          state := if c.state = .held then .refused else .cut
          call := if c.state = .held then c.call else none
          order := .plain (if c.state = .held then .refusedBlocked else .cutBlocked) 0 }).positions
    (s.engine.reading = some { who := .host, slot := e.slot, granule := .identity } → query → a.stage = .identity →
      let o := readIdentity (s.record e.slot).identity
      let t : State := { s with engine := { s.engine with
        corrected := if o.isCorrected then min 65535 (s.engine.corrected + 1) else s.engine.corrected } }
      let u := if o.valid = none then damage t else t
      let d := if o.valid = none then damaged else e
      (∀ i, s.queuedImage e.slot = some i → becomes (shows u d o.valid (some i))) ∧
      (s.queuedImage e.slot = none → e.live = none → becomes (shows u d o.valid none)) ∧
      ∀ copy g, s.queuedImage e.slot = none → e.live = some (copy, g) → becomes (reads u o.valid copy)) ∧
    ∀ (copy : Copy) (identity : Option Identity),
      s.engine.reading = some { who := .host, slot := e.slot, granule := copy.granule } →
      let o := readValue ((s.record e.slot).copy copy)
      let free := e.claimedBy = none ∧ ∀ c ∈ s.dir.claims, c.serial ≠ e.serial
      (a.stage = .live identity → o.valid = none →
        becomes (asks s { a with stage := .other identity } copy.other)) ∧
      (a.stage = .other identity → o.valid = none →
        (query →
          (∀ i, s.queuedImage e.slot = some i → becomes (shows (damage s) damaged identity (some i))) ∧
          (s.queuedImage e.slot = none → a.appeared = false ∨ e.live = none →
            becomes (shows (damage s) damaged identity none)) ∧
          ∀ next n, s.queuedImage e.slot = none → a.appeared = true → e.live = some (next, n) →
            becomes (reads (damage s) identity next)) ∧
        (¬query → free → becomes (answers (damage s) .badState 0)) ∧ (s.ordersCurrent → through (damage s))) ∧
      ∀ i g, o = .good (i, g) → a.stage = .live identity ∧ e.live ≠ none ∨ a.stage = .other identity →
        let second := decide (a.stage = .other identity)
        let d : DirEntry := if second then { e with live := some (copy, g) } else e
        let t : State := if second then { s with dir := { s.dir with
          entries := s.dir.entries.map fun d => if d.slot = e.slot then { d with live := some (copy, g) } else d } }
          else s
        -- the newest image is the queue's, or the one read where no entry has appeared
        let newest (image : Image) : Prop := s.queuedImage e.slot = some image ∨
          (s.queuedImage e.slot = none ∧ a.appeared = false ∧ image = i)
        -- the image joins the queue, or replaces that of the waiting VALUE entry, or finds no room
        let queues (image : Image) (data : Word) : Prop :=
          (s.hasWaitingValue e.slot = true → becomes (answers { t with engine := { t.engine with
            waiting := t.engine.waiting.map fun w =>
              if w.isValue = true ∧ w.slot = e.slot then { w with work := .value image, origin := .host }
              else w } } .ok data)) ∧
          (s.hasWaitingValue e.slot = false → s.engine.waiting.length + 1 + s.unqueuedClaims + 1 ≤ 96 →
            becomes (answers { t with
              dir := { t.dir with
                claims := t.dir.claims.map fun c => if c.slot = e.slot then { c with appeared := true } else c }
              engine := { t.engine with waiting := t.engine.waiting ++
                [{ work := .value image, slot := e.slot, attempts := 0, origin := .host }] } } .ok data)) ∧
          (s.hasWaitingValue e.slot = false → 96 < s.engine.waiting.length + 1 + s.unqueuedClaims + 1 →
            becomes (answers t .queueFull 0))
        -- the action reaches its image: it is not turned away, and does not act through a position
        let acts : Prop := (a.kind = .credit ∨ a.kind = .setExpiry → free) ∧ (a.kind = .block → e.claimedBy = none)
        (query → ∀ image, newest image → becomes (shows t d identity (some image))) ∧
        (∀ next n, s.queuedImage e.slot = none → a.appeared = true → d.live = some (next, n) →
          (query → becomes (reads t identity next)) ∧ (¬query → acts → becomes (reads t none next))) ∧
        (a.kind = .credit ∨ a.kind = .setExpiry → ¬free → becomes (answers t .inUse 0)) ∧
        (s.ordersCurrent → through t) ∧
        ∀ image, newest image → acts →
          let sum := image.balance + s.port.staging.value.toNat
          (a.kind = .credit → 50000 < sum → becomes (answers t .range 0)) ∧
          (a.kind = .credit → sum ≤ 50000 → queues
            { image with balance := sum, state := if image.state = .empty then .active else image.state }
            (BitVec.ofNat 16 sum)) ∧
          (a.kind = .setExpiry → queues { image with expiry := s.port.staging.expiry } s.port.staging.expiry) ∧
          (a.kind = .block → image.state = .blocked → becomes (answers t .ok 3)) ∧
          (a.kind = .block → image.state ≠ .blocked → queues { image with state := .blocked } 3) ∧
          (a.kind = .unblock → image.state ≠ .blocked → becomes (answers t .badState 0)) ∧
          (a.kind = .unblock → image.state = .blocked →
            (image.balance = 0 → queues { image with state := .empty } 2) ∧
            (image.balance ≠ 0 → image.useCount = 0 → queues { image with state := .fresh } 0) ∧
            (image.balance ≠ 0 → image.useCount ≠ 0 → queues { image with state := .active } 1))

/-- The tests of a claim at its completion, in their order, and what a grant hands over (2.6). They are those of
the model's operation `State.completeClaim`, given the newest image. -/
def Obligations.ClaimsAreTestedInOrder : Prop :=
  ∀ (s : State) (x : Serial) (p : Pos) (i : Image),
    let today := if s.tariff.daySet ∧ s.tariff.timeSet then s.tariff.day else 0
    (s.lookup x = none → s.completeClaim x p (some i) = (s, .refused .unknown)) ∧
    ∀ e, s.lookup x = some e →
      (e.condition = .issuing → s.completeClaim x p (some i) = (s, .wait)) ∧
      (e.condition = .damaged ∨ e.condition = .worn → s.completeClaim x p (some i) = (s, .refused .fault)) ∧
      (e.condition = .good → e.claimedBy ≠ none → s.completeClaim x p (some i) = (s, .refused .inUse)) ∧
      (e.condition = .good → e.claimedBy = none → s.pins.pwrlow = true →
        s.completeClaim x p (some i) = (s, .wait)) ∧
      (e.condition = .good → e.claimedBy = none → s.pins.pwrlow = false →
        (i.state = .blocked → s.completeClaim x p (some i) = (s.raiseHotCard x p, .refused .blocked)) ∧
        (i.state ≠ .blocked → i.expiry ≠ 0 → i.expiry.toNat < today.toNat →
          s.completeClaim x p (some i) = (s, .refused .expired)) ∧
        (i.state ≠ .blocked → i.expiry = 0 ∨ today.toNat ≤ i.expiry.toNat →
          (i.state = .empty ∨ i.balance = 0 → e.cls ≠ .service →
            s.completeClaim x p (some i) = (s, .refused (.empty i.balance))) ∧
          (i.state ≠ .empty ∧ i.balance ≠ 0 ∨ e.cls = .service →
            (s.hasRoom = false → s.completeClaim x p (some i) = (s.raiseAdmission, .wait)) ∧
            (s.hasRoom = true → ∃ j, (s.completeClaim x p (some i)).2 = .accepted e.slot e.cls j ∧
              j = { i with
                state := if i.state = .fresh then .active else i.state
                useCount := BitVec.ofNat 16 (min 65535 (i.useCount.toNat + 1))
                lastPosition := some p, lastUseDay := today } ∧
              (s.completeClaim x p (some i)).1 = { s with dir := { s.dir with
                entries := s.dir.entries.map fun d =>
                  if d.slot = e.slot then { d with claimedBy := some p } else d } }))))

/-- How a claim is sent, tested on its arrival, and answered. A position with a claim outstanding reads the card
afresh instead of claiming it (4.4). On arrival the directory's tests are made in their order: WAIT before READY and
under PWRLOW, UNKNOWN, WAIT for ISSUING, FAULT, IN USE, held behind a claim of the serial, and then the newest image,
which the queue gives at once, else it is read and the claim is in flight (2.6). The position acts on the answer by
its state; in GRACE a card that can pay, as a SERVICE card always can, pays the whole amount, with its checkpoint test
and its takings, and another is handed back REFUSED-LOW; an abandoned claim that was
granted is settled with the balance received and released (4.4, 5.8, 5.9). Stated of the model's operations. -/
def Obligations.ClaimsArriveAndAreAnswered : Prop :=
  ∀ (s : State) (p : Pos) (x : Serial), s.ordersCurrent →
    let c := s.ctx p
    let answers (a : ClaimAnswer) : Prop := (s.claimArrives x p).1 = s.takeAnswer p a
    ((c.state ≠ .grace →
        (c.outstanding ≠ none → s.sendClaim p x = s.withCtx p { c with
          state := .reading, candidate := none, highHalf := none, order := .plain .none 0 }) ∧
        (c.outstanding = none → s.sendClaim p x = ((s.withCtx p { c with
          state := .checking, candidate := some x, outstanding := some { serial := x, abandoned := false }
          order := .plain .wait 0 }).claimArrives x p).1)) ∧
      ∀ q, c.state = .grace → c.call = some q →
        (c.outstanding ≠ none → s.sendClaim p x = s.withCtx p { c with
          candidate := none, highHalf := none, call := some { q with sub := .reading }
          order := .plain .grace q.amount }) ∧
        (c.outstanding = none → s.sendClaim p x = ((s.withCtx p { c with
          candidate := some x, outstanding := some { serial := x, abandoned := false }
          call := some { q with sub := .checking }, order := .plain .grace q.amount }).claimArrives x p).1)) ∧
    ((s.dir.ready = false ∨ s.pins.pwrlow = true → answers .wait) ∧
      (s.dir.ready = true → s.pins.pwrlow = false →
        (s.lookup x = none → answers (.refused .unknown)) ∧
        ∀ e, s.lookup x = some e →
          (e.condition = .issuing → answers .wait) ∧
          (e.condition = .damaged ∨ e.condition = .worn → answers (.refused .fault)) ∧
          (e.condition = .good → e.claimedBy ≠ none → answers (.refused .inUse)) ∧
          (e.condition = .good → e.claimedBy = none →
            ((∃ d ∈ s.dir.claims, d.serial = x) → (s.claimArrives x p).1 = { s with dir := { s.dir with
              claims := s.dir.claims.map fun d => if d.serial = x then { d with held := d.held ++ [p] } else d } }) ∧
            ((∀ d ∈ s.dir.claims, d.serial ≠ x) →
              (∀ i, s.queuedImage e.slot = some i → (s.claimArrives x p).1 =
                (s.completeClaim x p (some i)).1.takeAnswer p (s.completeClaim x p (some i)).2) ∧
              ∀ copy g, s.queuedImage e.slot = none → e.live = some (copy, g) →
                let asked : State := { s with dir := { s.dir with claims := s.dir.claims ++ [{
                  serial := x, slot := e.slot, position := p, second := false, appeared := false
                  held := [] }] } }
                (s.claimArrives x p).1 =
                  asked.requestRead { who := .claim p, slot := e.slot, granule := copy.granule })))) ∧
    (∀ y, c.outstanding = some { serial := y, abandoned := false } →
      let d : Position := { c with outstanding := none }
      let taken (slot : Slot) (cls : CardClass) (i : Image) : Position := { d with
        claim := some { slot := slot, serial := y, cls := cls, image := i }, claimBalance := i.balance
        working := i.balance, debited := 0, candidate := none, refusedSerial := none, refusedVerdict := .none
        refusedBalance := 0 }
      let refused (r : RefusalReason) : Position := { d with
        candidate := none, refusedSerial := some y, refusedVerdict := r.verdict, refusedBalance := r.balance }
      (c.state = .checking →
        (∀ slot cls i, s.takeAnswer p (.accepted slot cls i) = s.withCtx p { taken slot cls i with
          state := .held, order := .plain .accepted i.balance }) ∧
        (∀ r, s.takeAnswer p (.refused r) = s.withCtx p { refused r with
          state := .refused, order := (refused r).showsRefusal }) ∧
        s.takeAnswer p .wait = s.withCtx p { d with state := .waiting, order := .plain .wait 0 }) ∧
      (∀ q, c.state = .grace → c.call = some q → q.sub = .checking →
        (∀ r, s.takeAnswer p (.refused r) = s.withCtx p { refused r with
          call := some { q with sub := .refused }, order := (refused r).showsRefusal }) ∧
        s.takeAnswer p .wait = s.withCtx p d ∧
        ∀ slot cls i, cls ≠ .service → i.balance < q.amount → ∃ t, s.takeAnswer p (.accepted slot cls i) = t ∧
          s.onlySettles t [slot] ∧ t.lines = s.lines ∧ s.port.onlyMarked t.port ∧ t.attention = s.attention ∧
          t.queues slot { i with state := if i.balance = 0 then .empty else i.state } ∧ t.free slot ∧
          t.positions = (s.withCtx p { d with
            claim := none, claimBalance := 0, working := 0, debited := 0, candidate := none
            refusedSerial := some y, refusedVerdict := .refusedLow, refusedBalance := i.balance
            call := some { q with sub := .refused }, order := .plain .refusedLow i.balance }).positions) ∧
      (∀ q slot cls i, c.state = .grace → c.call = some q → q.sub = .checking →
        cls = .service ∨ q.amount ≤ i.balance → s.tariff.takings[counterIndex cls q.zone] ≤ 4294967295 →
        let held : Claim := { slot := slot, serial := y, cls := cls, image := i }
        let a := s.account cls [q.amount] i.balance 0
        ∃ t, s.takeAnswer p (.accepted slot cls i) = t ∧ s.pays t p held q.zone [q.amount] a { taken slot cls i with
          state := .metered, working := a.working, debited := a.debited
          call := some { q with
            intervalTimer := if q.zone = 15 then none else some q.interval, graceTimer := none, amount := 0
            sub := .old }
          order := { verdict := .accepted, shown := a.working
                     warn := decide (cls ≠ .service ∧ a.working <
                       rateCharge q.rateUsed q.phase + rateCharge q.rateUsed (q.phase + 1)) } }) ∧
      (c.state = .cut →
        (∀ slot cls i, s.takeAnswer p (.accepted slot cls i) = s.withCtx p (taken slot cls i)) ∧
        (∀ r, s.takeAnswer p (.refused r) = s.withCtx p (refused r)) ∧
        s.takeAnswer p .wait = s.withCtx p { d with candidate := none })) ∧
    ∀ y, c.outstanding = some { serial := y, abandoned := true } →
      let d : Position := { c with outstanding := none }
      (∀ r, s.takeAnswer p (.refused r) = s.withCtx p d) ∧ s.takeAnswer p .wait = s.withCtx p d ∧
      ∀ slot cls i, ∃ t, s.takeAnswer p (.accepted slot cls i) = t ∧ s.onlySettles t [slot] ∧
        t.lines = s.lines ∧ s.port.onlyMarked t.port ∧ t.attention = s.attention ∧
        t.positions = (s.withCtx p d).positions ∧ t.free slot ∧
        t.queues slot { i with state := if i.balance = 0 then .empty else i.state }

/-- The start of an entry takes the head of the queue when nothing is in flight and no read waits: a VALUE entry
goes to the copy that is not live with the next generation, ISSUE and the erases begin at the identity granule
(7.1, 7.4, 7.5), also between the reads of a rebuild (2.5, log 31). Otherwise the event does not occur, and leaves the
state as it is (log 6). The step stands at the erase of its first granule, which reads bad from the start: that is
the model's reading (7.1, log 11). -/
def Obligations.EntriesStartFromTheHead : Prop :=
  ∀ s : State, s.pins.released = true → storeWf s.store = true →
    (s.engine.reading ≠ none ∨ s.engine.readList ≠ [] ∨ s.engine.flight ≠ none ∨ s.engine.waiting = [] →
      exec .entryStart s = .next s) ∧
    ∀ e rest, s.engine.reading = none → s.engine.readList = [] → s.engine.flight = none →
      s.engine.waiting = e :: rest →
      let starts (step : FlightStep) (first : GranuleName) (touched : Record) : Prop :=
        ∃ t, exec .entryStart s = .next t ∧
        t = { s with store := t.store, engine := { s.engine with
          waiting := rest, flight := some { entry := e, step := step, progress := .erasing first } } } ∧
        storeWf t.store = true ∧ t.record e.slot = touched ∧ ∀ y, y ≠ e.slot → t.record y = s.record y
      let r := s.record e.slot
      (∀ i d g, e.work = .value i → s.bySlot e.slot = some d → d.live = some (.a, g) →
        starts (.writeValue .b (g + 1)) .copyB { r with copyB := .damaged }) ∧
      (∀ i d g, e.work = .value i → s.bySlot e.slot = some d → d.live = some (.b, g) →
        starts (.writeValue .a (g + 1)) .copyA { r with copyA := .damaged }) ∧
      (∀ identity i, e.work = .issue identity i → starts .issueErase .identity { r with identity := .damaged }) ∧
      (e.work = .retire ∨ e.work = .eraseSlot → starts .erase .identity { r with identity := .damaged })

/-- A VALUE write finishes its verify. Verified, the note moves to the copy written and the entry leaves;
failed, it is put back at the head, or merged into the record's waiting entry, with its attempts raised; failed
for the third time it leaves, a GOOD record is WORN, and STORE FAULT names it. The granule holds what the write
left (7.4); that a verify which a read had suspended finds the cells left then, and not the operand, is the model's
choice (log 11). A verify that reads corrected is a success: it is counted, and a refresh with the image written is
offered for the record, which coalesces, joins, or finds no room and is dropped (7.4, 7.6); that in the drain it is
dropped also where it would coalesce is the model's choice (log 34). A verify that reads corrected but with other
contents fails, and its refresh is offered first (log 24): it finds the record's waiting entry, to which it gives its
origin, or is dropped, the write being in flight still. No read is in flight. -/
def Obligations.ValueWritesVerifyOrFail : Prop :=
  ∀ (s : State) (e : QueueEntry) (i : Image) (copy : Copy) (g : Gen) (p : Progress) (left : Granule RawValue),
    s.pins.released = true → storeWf s.store = true → s.engine.reading = none →
    s.engine.flight = some { entry := e, step := .writeValue copy g, progress := p } → e.work = .value i →
    let cells := match p with
      | .verifying _ => (s.record e.slot).copy copy
      | _ => left
    let noted := s.dir.entries.map fun d => if d.slot = e.slot then { d with live := some (copy, g) } else d
    ∃ t, exec (.valueWriteComplete left) s = .next t ∧
      t = { s with store := t.store, dir := { s.dir with entries := t.dir.entries, claims := t.dir.claims }
                   engine := { s.engine with
                     flight := none, waiting := t.engine.waiting, corrected := t.engine.corrected }
                   attention := t.attention, port := t.port } ∧
      t.record e.slot = (s.record e.slot).withCopy copy cells ∧ (∀ y, y ≠ e.slot → t.record y = s.record y) ∧
      t.engine.corrected =
        (if (readValue cells).isCorrected then min 65535 (s.engine.corrected + 1) else s.engine.corrected) ∧
      s.port.onlyMarked t.port ∧
      (readValue cells = .good (i, g) → t.dir.claims = s.dir.claims ∧ t.port = s.port ∧
        t.attention = s.attention ∧ t.engine.waiting = s.engine.waiting ∧ t.dir.entries = noted) ∧
      ((readValue cells).valid ≠ some (i, g) →
        -- a corrected read offers a refresh of an indexed record, but not in the drain
        let offers := (readValue cells).isCorrected = true ∧ s.port.mode ≠ .draining ∧
          ∃ d, s.bySlot e.slot = some d ∧ d.condition ≠ .issuing
        t.dir.claims = s.dir.claims ∧ t.port = s.port ∧
        (e.attempts < 2 →
          t.attention = s.attention ∧ t.dir.entries = s.dir.entries ∧
          (s.hasWaitingValue e.slot = false →
            t.engine.waiting = { e with attempts := e.attempts + 1 } :: s.engine.waiting) ∧
          ∀ before w after, s.engine.waiting = before ++ w :: after → w.isValue = true → w.slot = e.slot →
            (¬offers → (∀ v ∈ before ++ after, v.isValue = true → v.slot ≠ e.slot) →
              t.engine.waiting = { w with attempts := e.attempts + 1 } :: (before ++ after)) ∧
            (offers → (∀ v ∈ before ++ after, v.slot ≠ e.slot) →
              t.engine.waiting = { w with attempts := e.attempts + 1, origin := .refresh } :: (before ++ after))) ∧
        (2 ≤ e.attempts →
          (¬offers ∨ s.hasWaitingValue e.slot = false → t.engine.waiting = s.engine.waiting) ∧
          (offers → ∀ before w after, s.engine.waiting = before ++ w :: after → w.isValue = true →
            w.slot = e.slot → (∀ v ∈ before ++ after, v.slot ≠ e.slot) →
            t.engine.waiting = before ++ { w with origin := .refresh } :: after) ∧
          t.attention = (s.raiseStoreFault e.slot (some (.value, e.origin))).attention ∧
          t.attention.storeFault = some { slot := e.slot, cause := some (.value, e.origin) } ∧
          t.dir.entries = s.dir.entries.map fun d =>
            if d.slot = e.slot ∧ d.condition = .good then { d with condition := .worn } else d)) ∧
      (readValue cells = .corrected (i, g) → ∀ entry, s.bySlot e.slot = some entry → entry.condition ≠ .issuing →
        t.attention = s.attention ∧ t.dir.entries = noted ∧
        (s.port.mode = .draining → t.engine.waiting = s.engine.waiting) ∧
        (s.port.mode ≠ .draining →
          ((∀ w ∈ s.engine.waiting, w.slot ≠ e.slot) →
            t.engine.waiting =
              if s.engine.waiting.length + 1 + s.unqueuedClaims + 1 ≤ 96 then
                s.engine.waiting ++ [{ work := .value i, slot := e.slot, attempts := 0, origin := .refresh }]
              else s.engine.waiting) ∧
          ∀ before w after j, s.engine.waiting = before ++ w :: after → w.work = .value j → w.slot = e.slot →
            (∀ v ∈ before ++ after, v.slot ≠ e.slot) →
            t.engine.waiting = before ++ { w with origin := .refresh } :: after))

/-- The three steps of ISSUE and the erase of RETIRE and ERASE SLOT finish their verifies: each goes on to the
next, the last makes the record GOOD with copy A live at generation 0, or the slot free; an ISSUE that fails is
DAMAGED at once, an erase that fails is put back twice (7.5). Every granule that its verify reads corrected is counted
(7.6), and offers no refresh (log 24); that an erase's verify reads all three, also after one that is not blank, is the
model's choice (log 37). The
cells are as the step left them; that a verify which a read had suspended finds the cells left then, and not the operand,
is the model's choice, and so is it that the granule of the next step reads bad from its start (log 11). No read is in
flight. -/
def Obligations.IssueAndEraseStepsComplete : Prop :=
  ∀ (s : State) (e : QueueEntry) (p : Progress) (operand : Record), s.pins.released = true →
    storeWf s.store = true → s.engine.reading = none →
    let left := match p with
      | .verifying _ => s.record e.slot
      | _ => operand
    let weakI := (readIdentity left.identity).isCorrected.toNat
    let weakA := (readValue left.copyA).isCorrected.toNat
    let weakB := (readValue left.copyB).isCorrected.toNat
    let blank : Record := { identity := .blank, copyA := .blank, copyB := .blank }
    let r := s.record e.slot
    -- the step leaves the slot's record as `after` and the engine with `flight` and `waiting`, `weak` reads counted
    let leaves (weak : Nat) (c : Instr) (after : Record) (flight : Option Flight) (waiting : List QueueEntry)
        (entries : List DirEntry) (free : List Slot) (orphans : Nat) (fault : Option EntryKind) : Prop :=
      ∃ t, exec c s = .next t ∧
        t = { s with
          store := t.store, attention := t.attention
          dir := { s.dir with entries := entries, free := free, orphans := orphans }
          engine := { s.engine with
            flight := flight, waiting := waiting
            corrected := if weak = 0 then s.engine.corrected else min 65535 (s.engine.corrected + weak) } } ∧
        t.record e.slot = after ∧ (∀ y, y ≠ e.slot → t.record y = s.record y) ∧
        (fault = none → t.attention = s.attention) ∧
        ∀ kind, fault = some kind →
          t.attention.storeFault = some { slot := e.slot, cause := some (kind, e.origin) }
    let damaged := s.dir.entries.map fun d =>
      if d.slot = e.slot then { d with condition := .damaged, live := none } else d
    let c := Instr.issueStepComplete operand
    (∀ identity i, e.work = .issue identity i →
      (s.engine.flight = some { entry := e, step := .issueErase, progress := p } →
        (left = blank → leaves 0 c { blank with identity := .damaged }
          (some { entry := e, step := .issueIdentity, progress := .erasing .identity }) s.engine.waiting s.dir.entries
          s.dir.free s.dir.orphans none) ∧
        (left ≠ blank → leaves (weakI + weakA + weakB) c left none s.engine.waiting damaged s.dir.free s.dir.orphans
          (some .issue))) ∧
      (s.engine.flight = some { entry := e, step := .issueIdentity, progress := p } →
        ((readIdentity left.identity).valid = some identity →
          leaves weakI c { r with identity := left.identity, copyA := .damaged }
            (some { entry := e, step := .issueCopyA, progress := .erasing .copyA }) s.engine.waiting s.dir.entries
            s.dir.free s.dir.orphans none) ∧
        ((readIdentity left.identity).valid ≠ some identity →
          leaves weakI c { r with identity := left.identity } none s.engine.waiting damaged s.dir.free s.dir.orphans
            (some .issue))) ∧
      (s.engine.flight = some { entry := e, step := .issueCopyA, progress := p } →
        ((readValue left.copyA).valid = some (i, 0) →
          leaves weakA c { r with copyA := left.copyA } none s.engine.waiting
            (s.dir.entries.map fun d =>
              if d.slot = e.slot then { d with condition := .good, live := some (.a, 0) } else d)
            s.dir.free s.dir.orphans none) ∧
        ((readValue left.copyA).valid ≠ some (i, 0) →
          leaves weakA c { r with copyA := left.copyA } none s.engine.waiting damaged s.dir.free s.dir.orphans
            (some .issue)))) ∧
    (s.engine.flight = some { entry := e, step := .erase, progress := p } → e.work = .retire ∨ e.work = .eraseSlot →
      let kind : EntryKind := if e.work = .retire then .retire else .eraseSlot
      let c := Instr.eraseComplete operand
      (left = blank → leaves 0 c blank none s.engine.waiting s.dir.entries (s.dir.free ++ [e.slot])
        (s.dir.orphans - 1) none) ∧
      (left ≠ blank → e.attempts < 2 →
        leaves (weakI + weakA + weakB) c left none ({ e with attempts := e.attempts + 1 } :: s.engine.waiting) s.dir.entries s.dir.free
          s.dir.orphans none) ∧
      (left ≠ blank → 2 ≤ e.attempts →
        leaves (weakI + weakA + weakB) c left none s.engine.waiting s.dir.entries s.dir.free s.dir.orphans (some kind)))

/-! ### The supply, the resets and the start-up -/

/-- A power-on, a failing supply and an asserted RESETN give every volatile item its reset value and keep the
pins and the array, but for a store step in flight, which is torn: a VALUE write leaves its target bad or blank
and nothing else, an erase leaves the identity bad or blank, and the copies of a slot whose identity it had left
are blank up to where it stood (9.3, 1.4, 7.1). A suspended step is cut where it stands. Where a running one is cut
is an operand of the command, and that a step cut in its verify leaves its granule bad or blank too is the model's
choice (log 11); it is stated of a running step known to be at its beginning. Without supply RESETN begins no reset,
and its level alone changes (log 23). -/
def Obligations.PinResetsTearAndClear : Prop :=
  ∀ (s : State) (cut : Cut), storeWf s.store = true → s.engine.sound →
    let after (c : Instr) (pins : Pins) : Prop := ∃ t, exec c s = .next t ∧
      t = { State.reset with store := t.store, pins := pins, moments := s.moments, pending := s.pending } ∧
      (s.engine.flight = none → t.store = s.store) ∧
      ∀ f, s.engine.flight = some f →
        (∀ y, y ≠ f.entry.slot → t.record y = s.record y) ∧
        let old := s.record f.entry.slot
        let new := t.record f.entry.slot
        -- where the step is cut: the granule it had come to, and whether that granule was then blank
        let point : Cut := if s.engine.suspended then
            match f.progress with
            | .erasing g => { granule := g, leftBlank := false }
            | .erased g => { granule := g, leftBlank := true }
            | .programming => { cut with leftBlank := false }
            | .verifying _ => cut
          else cut
        let torn := fun {α : Type} (g : Granule α) => g = if point.leftBlank then Granule.blank else .damaged
        (s.engine.suspended = true ∨ f.progress = f.step.first ∨ (∃ left, f.progress = .verifying left)) →
        (∀ copy g, f.step = .writeValue copy g →
          new.identity = old.identity ∧ new.copy copy.other = old.copy copy.other ∧ torn (new.copy copy)) ∧
        (f.step = .erase ∨ f.step = .issueErase →
          (point.granule = .identity → torn new.identity ∧ new.copyA = old.copyA ∧ new.copyB = old.copyB) ∧
          (point.granule = .copyA → new.identity = .blank ∧ torn new.copyA ∧ new.copyB = old.copyB) ∧
          (point.granule = .copyB → new.identity = .blank ∧ new.copyA = .blank ∧ torn new.copyB)) ∧
        (f.step = .issueIdentity →
          torn new.identity ∧ new.copyA = old.copyA ∧ new.copyB = old.copyB) ∧
        (f.step = .issueCopyA → new.identity = old.identity ∧ torn new.copyA ∧ new.copyB = old.copyB)
    after (.powerOn cut) { s.pins with supply := .rising } ∧
    after (.powerFailure cut) { s.pins with supply := .absent } ∧
    (s.pins.supply ≠ .absent → after (.resetnAsserted cut) { s.pins with resetn := true }) ∧
    (s.pins.supply = .absent →
      exec (.resetnAsserted cut) s = .next { s with pins := { s.pins with resetn := true } })

/-- The start-up, when RESETN is deasserted with the supply valid, when the supply becomes valid with RESETN
deasserted, and at RESET LEAVE in IN RESET: every line goes to BLANKING with the settings it holds and sends its
first frame, every position in OFF with its mark set becomes VACANT, and the rebuild asks for slot 0 (9.5, 9.3,
3.2). With the supply not yet valid or RESETN still asserted the other of the two ends the reset (9.3); that each of
the two commands is sent whatever the other pin shows is the model's reading (log 23), and so is that the event of a
pin that stands there already does not occur (log 6). RESET LEAVE is PENDING in DRAINING and BAD STATE in the other
modes (8.11). -/
def Obligations.TheStartUpBegins : Prop :=
  ∀ s : State, s.ordersCurrent → s.directorySound →
    let starts (c : Instr) (before : State) : Prop := ∃ t, exec c s = .next t ∧
      t = { before with
        lines := t.lines, positions := t.positions
        dir := { s.dir with rebuild := some { slot := 0, stage := .identity } }
        engine := { s.engine with
          reading := some { who := .rebuild, slot := 0, granule := .identity } } } ∧
      (∀ l, t.line l = { s.line l with
        state := .blanking, count := 0, cycle := (s.line l).held, phase := .sending (t.cycleFrame l 0)
        receiver := none, record := .noStart }) ∧
      ∀ p, t.ctx p =
        if (s.ctx p).state = .off ∧ (s.ctx p).enabled = true then
          { s.ctx p with state := .vacant, highHalf := none, silentCount := 0, lastClass := .none }
        else { s.ctx p with silentCount := 0, lastClass := .none }
    let deasserted : Pins := { s.pins with resetn := false }
    let valid : Pins := { s.pins with supply := .valid }
    (s.pins.resetn = true →
      (s.pins.supply = .valid → starts .resetnDeasserted
        { s with pins := deasserted, port := { s.port with mode := .starting } }) ∧
      (s.pins.supply ≠ .valid → exec .resetnDeasserted s = .next { s with pins := deasserted })) ∧
    (s.pins.supply = .rising →
      (s.pins.resetn = false → starts .supplyValid
        { s with pins := valid, port := { s.port with mode := .starting } }) ∧
      (s.pins.resetn = true → exec .supplyValid s = .next { s with pins := valid })) ∧
    (s.pins.resetn = false → exec .resetnDeasserted s = .next s) ∧
    (s.pins.supply ≠ .rising → exec .supplyValid s = .next s) ∧
    (s.listens →
      (s.port.mode = .inReset → starts .resetLeave
        { s with port := { s.port.answered .ok 0 with mode := .starting } }) ∧
      (s.port.mode = .draining → exec .resetLeave s = .next (s.replied .pending 0)) ∧
      (s.port.mode = .running ∨ s.port.mode = .starting →
        exec .resetLeave s = .next (s.replied .badState 0)))

/-- PWRLOW asserted: every live claim is settled with its working balance and kept, its position's D becomes 0,
and nothing else of any position changes; deasserted, only the pin changes (9.2). -/
def Obligations.PwrlowSettlesLiveClaims : Prop :=
  ∀ s : State, s.ordersCurrent → s.directorySound →
    (s.pins.pwrlow = false → ∃ t, exec .pwrlowAsserted s = .next t ∧
      { s with pins := { s.pins with pwrlow := true } }.onlySettles t
        (allPositions.flatMap fun p => (s.ctx p).heldSlots) ∧
      t.dir.entries = s.dir.entries ∧ t.lines = s.lines ∧ t.attention = s.attention ∧
      s.port.onlyMarked t.port ∧
      ∀ p, ((s.ctx p).claim = none → t.ctx p = s.ctx p) ∧
        ∀ k, (s.ctx p).claim = some k → t.ctx p = { s.ctx p with debited := 0 } ∧
          t.queues k.slot { k.image with
            balance := (s.ctx p).working
            state := if (s.ctx p).working = 0 then .empty else k.image.state }) ∧
    exec .pwrlowDeasserted s = .next { s with pins := { s.pins with pwrlow := false } }

/-- RESET ENTER in RUNNING begins the drain: the mode is DRAINING, every line goes to OFF, and every position of
a line that was driven, and every LOST position of a FAULTED line, enters OFF, its claim settled and released: by the
law that a position not OFF stands on a driven line or is LOST on a FAULTED one, that is every position not already OFF,
and all are OFF after it. When
the queue and the claims in flight are empty the part enters IN RESET: every volatile item takes its value there, the
mark is kept, and RS is set; the transfer under way is kept too (log 25) (8.11, 9.4). Before the drain has ended the
entry does not occur, and leaves the state as it is (log 6). -/
def Obligations.TheSoftReset : Prop :=
  ∀ s : State,
    (s.serves → s.ordersCurrent → s.directorySound →
      let leaves (p : Pos) : Bool := decide ((s.ctx p).state ≠ .off) &&
        ((s.line (lineOf p)).driven || decide ((s.line (lineOf p)).state = .faulted ∧ (s.ctx p).state = .lost))
      ∃ t, exec .resetEnter s = .next t ∧
      s.onlySettles t (allPositions.flatMap fun p => if leaves p then (s.ctx p).heldSlots else []) ∧
      t.attention = s.attention ∧ t.port = { s.port.answered .ok 0 with mode := .draining } ∧
      (∀ l, t.line l = if (s.line l).state = .off then s.line l else { s.line l with
        state := .off, phase := .stopped, receiver := none, record := .noStart }) ∧
      (s.positionsServed → ∀ p, (leaves p = decide ((s.ctx p).state ≠ .off)) ∧ (t.ctx p).state = .off) ∧
      ∀ p, (leaves p = false → t.ctx p = s.ctx p) ∧
        (leaves p = true →
          (t.ctx p).state = .off ∧ (t.ctx p).claim = none ∧ (t.ctx p).call = none ∧
          (t.ctx p).enabled = (s.ctx p).enabled ∧
          (t.ctx p).outstanding = (s.ctx p).outstanding.map (fun o => { o with abandoned := true }) ∧
          (t.ctx p).order = { verdict := .none, warn := false, shown := 0 } ∧
          ∀ k, (s.ctx p).claim = some k →
            t.queues k.slot (k.settlement (s.ctx p).working false) ∧ t.free k.slot)) ∧
    (s.pins.released = true →
      (s.port.mode = .draining → s.engine.waiting = [] → s.engine.flight = none → s.dir.claims = [] →
        exec .enterInReset s = .next { State.reset with
          store := s.store, pins := s.pins, moments := s.moments, pending := s.pending
          port := { Port.reset with
            mode := .inReset, ownerMark := s.port.ownerMark, transfer := s.port.transfer } }) ∧
      (s.port.mode ≠ .draining ∨ s.engine.waiting ≠ [] ∨ s.engine.flight ≠ none ∨ s.dir.claims ≠ [] →
        exec .enterInReset s = .next s))

/-! ### What every run keeps -/

/-- The state after reset is safe: every law below holds of it. Its cycle settings and its blank array are values
of the model's (log 4, log 2). -/
def Obligations.TheResetStateIsSafe : Prop :=
  State.reset.Safe

/-- Every step keeps the array's canonical form, the ranges of the settings, the buffer's bounds, the laws of
the clock, the schedule, the takings and the current band, and the laws of the ATTN pulses (3.1, 5.3, 5.8, 6.4
to 6.6, 8.10, 9.1). Every step keeps the law of the write queue: one waiting VALUE entry a record, attempts up
to 2, and a flight whose step is of its entry's kind (7.2, 7.4). -/
def Obligations.StepsKeepTheRanges : Prop :=
  (∀ s t : State, step s = .next t →
     (storeWf s.store = true → storeWf t.store = true) ∧
     (s.linesLegal → t.linesLegal) ∧
     (s.settings.legal = true → t.settings.legal = true) ∧
     (s.port.bufferLegal = true → t.port.bufferLegal = true) ∧
     (s.tariff.legal → s.tariff.bandCurrent → t.tariff.legal ∧ t.tariff.bandCurrent) ∧
     (s.attention.legal → t.attention.legal)) ∧
  (∀ s t : State, step s = .next t → s.engine.sound → t.engine.sound)

/-- Every step keeps the laws of the positions: the order each shows is that of its state, a call context stands
in METERED and GRACE only, a claim in METERED and none in OFF and LOST, and W never exceeds the claim balance; and a
position that is not OFF stands on a driven line, or is LOST on a FAULTED one (3.2, 4.1, 4.2, 4.8, 4.9, 5.1, 5.3, 5.8). -/
def Obligations.StepsKeepThePositions : Prop :=
  ∀ s t : State, step s = .next t →
    (s.ordersCurrent → t.ordersCurrent) ∧ (s.positionsSound → t.positionsSound) ∧
    (s.positionsServed → t.positionsServed)

/-- Every step keeps the laws of the directory: no serial in two entries, no slot placed twice, and every card
that a position holds claimed in the directory by that position, so that no record is claimed by two (2.2, 2.3,
2.5). -/
def Obligations.StepsKeepTheDirectory : Prop :=
  ∀ s t : State, step s = .next t → s.engine.sound → s.directorySound → t.directorySound

/-- The admission law: the entries of the queue and the live claims without a waiting VALUE entry never exceed
96, so that every live claim can settle (7.3). -/
def Obligations.StepsKeepTheQueueBounded : Prop :=
  ∀ s t : State, step s = .next t → s.engine.sound → s.directorySound → s.queueBounded → t.queueBounded

/-- The array changes only where the store engine is at work: no other command touches it, a read in flight
changes its own slot at most, and so does the rebuild's read where none is in flight, and while a VALUE write is in
flight no command but a read's failing cells touches the record's other copy or its identity, whatever tears the
write (1.4, 7.1). -/
def Obligations.OnlyTheEngineWritesTheArray : Prop :=
  ∀ (c : Instr) (s t : State), storeWf s.store = true → exec c s = .next t →
    (∀ x, t.record x ≠ s.record x →
      (∃ f ∈ s.engine.flight, f.entry.slot = x) ∨
      (∃ r ∈ s.engine.reading <|> s.dir.rebuild.map Rebuild.request,
        r.slot = x ∧ ∃ change, c = .storeReadComplete change) ∨
      (c = .entryStart ∧ ∃ e ∈ s.engine.waiting.head?, e.slot = x)) ∧
    ((∀ change, c ≠ .storeReadComplete change) → ∀ f ∈ s.engine.flight, ∀ copy g,
      f.step = .writeValue copy g →
        (t.record f.entry.slot).copy copy.other = (s.record f.entry.slot).copy copy.other ∧
        (t.record f.entry.slot).identity = (s.record f.entry.slot).identity)
end

