-- ==== Sys2Proof/Laws/State.lean ====
section
/-!
SUPPORT. What each component update of the state reads back as: one lemma per field per update, true by rfl,
so that no later proof unfolds an update. Then the views of the state (a context, a line, a record, the reset
test) under each update, and the two updates that write one place of a vector.
-/

namespace Sys2Proof.Machine

/-! ### `onEngine` -/

section
variable (f : Engine → Engine) (s : State)

@[simp] theorem State.onEngine_store : (s.onEngine f).store = s.store := rfl
@[simp] theorem State.onEngine_engine : (s.onEngine f).engine = f s.engine := rfl
@[simp] theorem State.onEngine_dir : (s.onEngine f).dir = s.dir := rfl
@[simp] theorem State.onEngine_tariff : (s.onEngine f).tariff = s.tariff := rfl
@[simp] theorem State.onEngine_lines : (s.onEngine f).lines = s.lines := rfl
@[simp] theorem State.onEngine_positions : (s.onEngine f).positions = s.positions := rfl
@[simp] theorem State.onEngine_settings : (s.onEngine f).settings = s.settings := rfl
@[simp] theorem State.onEngine_port : (s.onEngine f).port = s.port := rfl
@[simp] theorem State.onEngine_attention : (s.onEngine f).attention = s.attention := rfl
@[simp] theorem State.onEngine_pins : (s.onEngine f).pins = s.pins := rfl
@[simp] theorem State.onEngine_moments : (s.onEngine f).moments = s.moments := rfl
@[simp] theorem State.onEngine_pending : (s.onEngine f).pending = s.pending := rfl
@[simp] theorem State.onEngine_ctx (p : Pos) : (s.onEngine f).ctx p = s.ctx p := rfl
@[simp] theorem State.onEngine_line (l : LineIx) : (s.onEngine f).line l = s.line l := rfl
@[simp] theorem State.onEngine_record (x : Slot) : (s.onEngine f).record x = s.record x := rfl
@[simp] theorem State.onEngine_inReset : (s.onEngine f).inReset = s.inReset := rfl

end

/-! ### `onDir` -/

section
variable (f : Directory → Directory) (s : State)

@[simp] theorem State.onDir_store : (s.onDir f).store = s.store := rfl
@[simp] theorem State.onDir_engine : (s.onDir f).engine = s.engine := rfl
@[simp] theorem State.onDir_dir : (s.onDir f).dir = f s.dir := rfl
@[simp] theorem State.onDir_tariff : (s.onDir f).tariff = s.tariff := rfl
@[simp] theorem State.onDir_lines : (s.onDir f).lines = s.lines := rfl
@[simp] theorem State.onDir_positions : (s.onDir f).positions = s.positions := rfl
@[simp] theorem State.onDir_settings : (s.onDir f).settings = s.settings := rfl
@[simp] theorem State.onDir_port : (s.onDir f).port = s.port := rfl
@[simp] theorem State.onDir_attention : (s.onDir f).attention = s.attention := rfl
@[simp] theorem State.onDir_pins : (s.onDir f).pins = s.pins := rfl
@[simp] theorem State.onDir_moments : (s.onDir f).moments = s.moments := rfl
@[simp] theorem State.onDir_pending : (s.onDir f).pending = s.pending := rfl
@[simp] theorem State.onDir_ctx (p : Pos) : (s.onDir f).ctx p = s.ctx p := rfl
@[simp] theorem State.onDir_line (l : LineIx) : (s.onDir f).line l = s.line l := rfl
@[simp] theorem State.onDir_record (x : Slot) : (s.onDir f).record x = s.record x := rfl
@[simp] theorem State.onDir_inReset : (s.onDir f).inReset = s.inReset := rfl

end

/-! ### `onTariff` -/

section
variable (f : Tariff → Tariff) (s : State)

@[simp] theorem State.onTariff_store : (s.onTariff f).store = s.store := rfl
@[simp] theorem State.onTariff_engine : (s.onTariff f).engine = s.engine := rfl
@[simp] theorem State.onTariff_dir : (s.onTariff f).dir = s.dir := rfl
@[simp] theorem State.onTariff_tariff : (s.onTariff f).tariff = f s.tariff := rfl
@[simp] theorem State.onTariff_lines : (s.onTariff f).lines = s.lines := rfl
@[simp] theorem State.onTariff_positions : (s.onTariff f).positions = s.positions := rfl
@[simp] theorem State.onTariff_settings : (s.onTariff f).settings = s.settings := rfl
@[simp] theorem State.onTariff_port : (s.onTariff f).port = s.port := rfl
@[simp] theorem State.onTariff_attention : (s.onTariff f).attention = s.attention := rfl
@[simp] theorem State.onTariff_pins : (s.onTariff f).pins = s.pins := rfl
@[simp] theorem State.onTariff_moments : (s.onTariff f).moments = s.moments := rfl
@[simp] theorem State.onTariff_pending : (s.onTariff f).pending = s.pending := rfl
@[simp] theorem State.onTariff_ctx (p : Pos) : (s.onTariff f).ctx p = s.ctx p := rfl
@[simp] theorem State.onTariff_line (l : LineIx) : (s.onTariff f).line l = s.line l := rfl
@[simp] theorem State.onTariff_record (x : Slot) : (s.onTariff f).record x = s.record x := rfl
@[simp] theorem State.onTariff_inReset : (s.onTariff f).inReset = s.inReset := rfl

end

/-! ### `onSettings` -/

section
variable (f : Settings → Settings) (s : State)

@[simp] theorem State.onSettings_store : (s.onSettings f).store = s.store := rfl
@[simp] theorem State.onSettings_engine : (s.onSettings f).engine = s.engine := rfl
@[simp] theorem State.onSettings_dir : (s.onSettings f).dir = s.dir := rfl
@[simp] theorem State.onSettings_tariff : (s.onSettings f).tariff = s.tariff := rfl
@[simp] theorem State.onSettings_lines : (s.onSettings f).lines = s.lines := rfl
@[simp] theorem State.onSettings_positions : (s.onSettings f).positions = s.positions := rfl
@[simp] theorem State.onSettings_settings : (s.onSettings f).settings = f s.settings := rfl
@[simp] theorem State.onSettings_port : (s.onSettings f).port = s.port := rfl
@[simp] theorem State.onSettings_attention : (s.onSettings f).attention = s.attention := rfl
@[simp] theorem State.onSettings_pins : (s.onSettings f).pins = s.pins := rfl
@[simp] theorem State.onSettings_moments : (s.onSettings f).moments = s.moments := rfl
@[simp] theorem State.onSettings_pending : (s.onSettings f).pending = s.pending := rfl
@[simp] theorem State.onSettings_ctx (p : Pos) : (s.onSettings f).ctx p = s.ctx p := rfl
@[simp] theorem State.onSettings_line (l : LineIx) : (s.onSettings f).line l = s.line l := rfl
@[simp] theorem State.onSettings_record (x : Slot) : (s.onSettings f).record x = s.record x := rfl
@[simp] theorem State.onSettings_inReset : (s.onSettings f).inReset = s.inReset := rfl

end

/-! ### `onPort` -/

section
variable (f : Port → Port) (s : State)

@[simp] theorem State.onPort_store : (s.onPort f).store = s.store := rfl
@[simp] theorem State.onPort_engine : (s.onPort f).engine = s.engine := rfl
@[simp] theorem State.onPort_dir : (s.onPort f).dir = s.dir := rfl
@[simp] theorem State.onPort_tariff : (s.onPort f).tariff = s.tariff := rfl
@[simp] theorem State.onPort_lines : (s.onPort f).lines = s.lines := rfl
@[simp] theorem State.onPort_positions : (s.onPort f).positions = s.positions := rfl
@[simp] theorem State.onPort_settings : (s.onPort f).settings = s.settings := rfl
@[simp] theorem State.onPort_port : (s.onPort f).port = f s.port := rfl
@[simp] theorem State.onPort_attention : (s.onPort f).attention = s.attention := rfl
@[simp] theorem State.onPort_pins : (s.onPort f).pins = s.pins := rfl
@[simp] theorem State.onPort_moments : (s.onPort f).moments = s.moments := rfl
@[simp] theorem State.onPort_pending : (s.onPort f).pending = s.pending := rfl
@[simp] theorem State.onPort_ctx (p : Pos) : (s.onPort f).ctx p = s.ctx p := rfl
@[simp] theorem State.onPort_line (l : LineIx) : (s.onPort f).line l = s.line l := rfl
@[simp] theorem State.onPort_record (x : Slot) : (s.onPort f).record x = s.record x := rfl
@[simp] theorem State.onPort_inReset : (s.onPort f).inReset = s.inReset := rfl

end

/-! ### `onAttention` -/

section
variable (f : Attention → Attention) (s : State)

@[simp] theorem State.onAttention_store : (s.onAttention f).store = s.store := rfl
@[simp] theorem State.onAttention_engine : (s.onAttention f).engine = s.engine := rfl
@[simp] theorem State.onAttention_dir : (s.onAttention f).dir = s.dir := rfl
@[simp] theorem State.onAttention_tariff : (s.onAttention f).tariff = s.tariff := rfl
@[simp] theorem State.onAttention_lines : (s.onAttention f).lines = s.lines := rfl
@[simp] theorem State.onAttention_positions : (s.onAttention f).positions = s.positions := rfl
@[simp] theorem State.onAttention_settings : (s.onAttention f).settings = s.settings := rfl
@[simp] theorem State.onAttention_port : (s.onAttention f).port = s.port := rfl
@[simp] theorem State.onAttention_attention : (s.onAttention f).attention = f s.attention := rfl
@[simp] theorem State.onAttention_pins : (s.onAttention f).pins = s.pins := rfl
@[simp] theorem State.onAttention_moments : (s.onAttention f).moments = s.moments := rfl
@[simp] theorem State.onAttention_pending : (s.onAttention f).pending = s.pending := rfl
@[simp] theorem State.onAttention_ctx (p : Pos) : (s.onAttention f).ctx p = s.ctx p := rfl
@[simp] theorem State.onAttention_line (l : LineIx) : (s.onAttention f).line l = s.line l := rfl
@[simp] theorem State.onAttention_record (x : Slot) : (s.onAttention f).record x = s.record x := rfl
@[simp] theorem State.onAttention_inReset : (s.onAttention f).inReset = s.inReset := rfl

end

/-! ### `onPins` -/

section
variable (f : Pins → Pins) (s : State)

@[simp] theorem State.onPins_store : (s.onPins f).store = s.store := rfl
@[simp] theorem State.onPins_engine : (s.onPins f).engine = s.engine := rfl
@[simp] theorem State.onPins_dir : (s.onPins f).dir = s.dir := rfl
@[simp] theorem State.onPins_tariff : (s.onPins f).tariff = s.tariff := rfl
@[simp] theorem State.onPins_lines : (s.onPins f).lines = s.lines := rfl
@[simp] theorem State.onPins_positions : (s.onPins f).positions = s.positions := rfl
@[simp] theorem State.onPins_settings : (s.onPins f).settings = s.settings := rfl
@[simp] theorem State.onPins_port : (s.onPins f).port = s.port := rfl
@[simp] theorem State.onPins_attention : (s.onPins f).attention = s.attention := rfl
@[simp] theorem State.onPins_pins : (s.onPins f).pins = f s.pins := rfl
@[simp] theorem State.onPins_moments : (s.onPins f).moments = s.moments := rfl
@[simp] theorem State.onPins_pending : (s.onPins f).pending = s.pending := rfl
@[simp] theorem State.onPins_ctx (p : Pos) : (s.onPins f).ctx p = s.ctx p := rfl
@[simp] theorem State.onPins_line (l : LineIx) : (s.onPins f).line l = s.line l := rfl
@[simp] theorem State.onPins_record (x : Slot) : (s.onPins f).record x = s.record x := rfl

end

/-! ### `onStore` -/

section
variable (f : List (Slot × Record) → List (Slot × Record)) (s : State)

@[simp] theorem State.onStore_store : (s.onStore f).store = f s.store := rfl
@[simp] theorem State.onStore_engine : (s.onStore f).engine = s.engine := rfl
@[simp] theorem State.onStore_dir : (s.onStore f).dir = s.dir := rfl
@[simp] theorem State.onStore_tariff : (s.onStore f).tariff = s.tariff := rfl
@[simp] theorem State.onStore_lines : (s.onStore f).lines = s.lines := rfl
@[simp] theorem State.onStore_positions : (s.onStore f).positions = s.positions := rfl
@[simp] theorem State.onStore_settings : (s.onStore f).settings = s.settings := rfl
@[simp] theorem State.onStore_port : (s.onStore f).port = s.port := rfl
@[simp] theorem State.onStore_attention : (s.onStore f).attention = s.attention := rfl
@[simp] theorem State.onStore_pins : (s.onStore f).pins = s.pins := rfl
@[simp] theorem State.onStore_moments : (s.onStore f).moments = s.moments := rfl
@[simp] theorem State.onStore_pending : (s.onStore f).pending = s.pending := rfl
@[simp] theorem State.onStore_ctx (p : Pos) : (s.onStore f).ctx p = s.ctx p := rfl
@[simp] theorem State.onStore_line (l : LineIx) : (s.onStore f).line l = s.line l := rfl
@[simp] theorem State.onStore_inReset : (s.onStore f).inReset = s.inReset := rfl

end

/-! ### `onLine` -/

section
variable (l : LineIx) (f : Line → Line) (s : State)

@[simp] theorem State.onLine_store : (s.onLine l f).store = s.store := rfl
@[simp] theorem State.onLine_engine : (s.onLine l f).engine = s.engine := rfl
@[simp] theorem State.onLine_dir : (s.onLine l f).dir = s.dir := rfl
@[simp] theorem State.onLine_tariff : (s.onLine l f).tariff = s.tariff := rfl
@[simp] theorem State.onLine_positions : (s.onLine l f).positions = s.positions := rfl
@[simp] theorem State.onLine_settings : (s.onLine l f).settings = s.settings := rfl
@[simp] theorem State.onLine_port : (s.onLine l f).port = s.port := rfl
@[simp] theorem State.onLine_attention : (s.onLine l f).attention = s.attention := rfl
@[simp] theorem State.onLine_pins : (s.onLine l f).pins = s.pins := rfl
@[simp] theorem State.onLine_moments : (s.onLine l f).moments = s.moments := rfl
@[simp] theorem State.onLine_pending : (s.onLine l f).pending = s.pending := rfl
@[simp] theorem State.onLine_ctx (q : Pos) : (s.onLine l f).ctx q = s.ctx q := rfl
@[simp] theorem State.onLine_record (x : Slot) : (s.onLine l f).record x = s.record x := rfl
@[simp] theorem State.onLine_inReset : (s.onLine l f).inReset = s.inReset := rfl

end

/-! ### `onCtx` -/

section
variable (p : Pos) (f : Position → Position) (s : State)

@[simp] theorem State.onCtx_store : (s.onCtx p f).store = s.store := rfl
@[simp] theorem State.onCtx_engine : (s.onCtx p f).engine = s.engine := rfl
@[simp] theorem State.onCtx_dir : (s.onCtx p f).dir = s.dir := rfl
@[simp] theorem State.onCtx_tariff : (s.onCtx p f).tariff = s.tariff := rfl
@[simp] theorem State.onCtx_lines : (s.onCtx p f).lines = s.lines := rfl
@[simp] theorem State.onCtx_settings : (s.onCtx p f).settings = s.settings := rfl
@[simp] theorem State.onCtx_port : (s.onCtx p f).port = s.port := rfl
@[simp] theorem State.onCtx_attention : (s.onCtx p f).attention = s.attention := rfl
@[simp] theorem State.onCtx_pins : (s.onCtx p f).pins = s.pins := rfl
@[simp] theorem State.onCtx_moments : (s.onCtx p f).moments = s.moments := rfl
@[simp] theorem State.onCtx_pending : (s.onCtx p f).pending = s.pending := rfl
@[simp] theorem State.onCtx_line (l : LineIx) : (s.onCtx p f).line l = s.line l := rfl
@[simp] theorem State.onCtx_record (x : Slot) : (s.onCtx p f).record x = s.record x := rfl
@[simp] theorem State.onCtx_inReset : (s.onCtx p f).inReset = s.inReset := rfl

end

/-- A line's controller after an update of some line. -/
theorem State.line_onLine (l k : LineIx) (f : Line → Line) (s : State) :
    (s.onLine l f).line k = if l = k then f (s.line l) else s.line k := by
  simp [State.onLine, State.line, Vector.getElem_set, Fin.ext_iff]

@[simp] theorem State.line_onLine_same (l : LineIx) (f : Line → Line) (s : State) :
    (s.onLine l f).line l = f (s.line l) := by simp [State.line_onLine]

theorem State.line_onLine_other {l k : LineIx} (h : l ≠ k) (f : Line → Line) (s : State) :
    (s.onLine l f).line k = s.line k := by simp [State.line_onLine, h]

/-- A context with its order made current. -/
def Position.settled (c : Position) : Position := { c with order := c.currentOrder }

/-- A position's context after an update of some position. -/
theorem State.ctx_onCtx (p q : Pos) (f : Position → Position) (s : State) :
    (s.onCtx p f).ctx q = if p = q then (f (s.ctx p)).settled else s.ctx q := by
  simp [State.onCtx, State.ctx, Position.settled, Vector.getElem_set, Fin.ext_iff]

@[simp] theorem State.ctx_onCtx_same (p : Pos) (f : Position → Position) (s : State) :
    (s.onCtx p f).ctx p = (f (s.ctx p)).settled := by simp [State.ctx_onCtx]

theorem State.ctx_onCtx_other {p q : Pos} (h : p ≠ q) (f : Position → Position) (s : State) :
    (s.onCtx p f).ctx q = s.ctx q := by simp [State.ctx_onCtx, h]

/-- Making an order current twice is making it current once (R58). -/
@[simp] theorem Position.settled_currentOrder (c : Position) :
    c.settled.currentOrder = c.settled.order := by
  unfold Position.settled Position.currentOrder Position.refusedOrder
  cases c.state <;> simp

/-- A settled context differs from the context in its order only. -/
theorem Position.settled_eq (c : Position) : c.settled = { c with order := c.currentOrder } := rfl

/-! ### Accounts -/

@[simp] theorem Account.debit_zero (service : Bool) (step : Nat) (a : Account) : a.debit service step 0 = a := by
  simp [Account.debit]

/-- A SERVICE card's balance stands whatever is debited (R86). -/
theorem Account.debit_working (service : Bool) (step units : Nat) (a : Account) :
    (a.debit service step units).working = if service then a.working else a.working - units := by
  unfold Account.debit
  dsimp only
  split <;> rfl

@[simp] theorem State.account_nil (s : State) (cls : CardClass) (w d : Nat) :
    s.account cls [] w d = { working := w, debited := d, settled := none } := rfl

/-- The charges of a report are debited in turn: the last of them from the account that the others leave. -/
theorem State.account_append (s : State) (cls : CardClass) (charges : List Nat) (units w d : Nat) :
    s.account cls (charges ++ [units]) w d =
      (s.account cls charges w d).debit (decide (cls = .service))
        (if s.pins.pwrlow then 1 else s.settings.checkpoint) units := by
  simp [State.account]

/-! ### The close of a window -/

/-- The model's close of a window leaves the line as the claims say it (R48, R50). -/
theorem Line.afterClose_eq_closed (k : Fin 8) (l : Line) : l.afterClose k = l.closed k := by
  unfold Line.afterClose Line.closed
  split
  · cases h : l.receiver <;> simp [Option.filter]
    split <;> rfl
  · rfl

@[simp] theorem Line.closed_state (k : Fin 8) (l : Line) : (l.closed k).state = l.state := by
  unfold Line.closed; split <;> rfl
@[simp] theorem Line.closed_receiver (k : Fin 8) (l : Line) : (l.closed k).receiver = l.receiver := by
  unfold Line.closed; split <;> rfl
@[simp] theorem Line.closed_cycle (k : Fin 8) (l : Line) : (l.closed k).cycle = l.cycle := by
  unfold Line.closed; split <;> rfl

end Sys2Proof.Machine
end

