-- ==== Sys2Proof/Laws/Store.lean ====
section
/-!
SUPPORT. The record array: reading after writing, and the canonical form that every write keeps. The outcomes
of reading what the engine programs (R1, R2, R9).
-/

namespace Sys2Proof.Machine

/-- Reading a slot after a slot was written. -/
theorem recordAt_putRecord (st : List (Slot × Record)) (x y : Slot) (r : Record)
    (h : storeWf st = true) : recordAt (putRecord st x r) y = if x = y then r else recordAt st y := by
  have below : ∀ (l : List (Slot × Record)) (k : Slot) (v : Record), storeWf ((k, v) :: l) = true →
      ∀ z, z < k → recordAt l z = blankRecord := by
    intro l
    induction l with
    | nil => intros; rfl
    | cons e l ih =>
      obtain ⟨k', v'⟩ := e
      intro k v hw z hz
      simp only [storeWf, Bool.and_eq_true, decide_eq_true_eq] at hw
      have hz' : z < k' := hz.trans hw.1.2
      simp only [recordAt, (ne_of_gt hz')]
      simpa using ih k' v' hw.2 z hz'
  induction st with
  | nil =>
    by_cases hr : r = blankRecord <;> by_cases hx : x = y <;> simp [putRecord, recordAt, hr, hx]
  | cons e rest ih =>
    obtain ⟨k, v⟩ := e
    have hrest : storeWf rest = true := by
      cases rest with
      | nil => rfl
      | cons e' rest' =>
        obtain ⟨k', v'⟩ := e'
        simp only [storeWf, Bool.and_eq_true] at h
        exact h.2
    simp only [putRecord]
    split
    · next hxk =>
      by_cases hr : r = blankRecord
      · by_cases hx : x = y
        · subst hx
          have : ¬k = x := (ne_of_gt hxk)
          simp only [hr, if_true, recordAt, this, if_false]
          exact below rest k v h x hxk
        · simp [hr, hx]
      · by_cases hx : x = y <;> simp [hr, recordAt, hx]
    · split
      · next hxk =>
        subst hxk
        by_cases hx : x = y
        · subst hx
          by_cases hr : r = blankRecord
          · simp only [hr, if_true]
            cases rest with
            | nil => rfl
            | cons e' rest' =>
              obtain ⟨k', v'⟩ := e'
              simp only [storeWf, Bool.and_eq_true, decide_eq_true_eq] at h
              have : ¬k' = x := (ne_of_gt h.1.2)
              simp only [recordAt, this, if_false]
              exact below rest' k' v' h.2 x h.1.2
          · simp [hr, recordAt]
        · by_cases hr : r = blankRecord <;> simp [hr, recordAt, hx]
      · next h1 h2 =>
        simp only [recordAt, ih hrest]
        by_cases hk : k = y
        · subst hk; simp [h2]
        · simp [hk]

/-- The canonical form, said of all entries at once: slots strictly rise and no record is blank. -/
theorem storeWf_iff (st : List (Slot × Record)) :
    storeWf st = true ↔ st.Pairwise (fun a b => a.1 < b.1) ∧ ∀ e ∈ st, e.2 ≠ blankRecord := by
  induction st with
  | nil => simp [storeWf]
  | cons e rest ih =>
    obtain ⟨k, v⟩ := e
    cases rest with
    | nil => simp [storeWf]
    | cons e' rest' =>
      obtain ⟨k', v'⟩ := e'
      simp only [storeWf, Bool.and_eq_true, decide_eq_true_eq, ih]
      constructor
      · rintro ⟨⟨hv, hk⟩, hp, hb⟩
        refine ⟨List.pairwise_cons.2 ⟨fun a ha => ?_, hp⟩, fun a ha => ?_⟩
        · rcases List.mem_cons.1 ha with rfl | ha
          · exact hk
          · exact hk.trans ((List.pairwise_cons.1 hp).1 a ha)
        · rcases List.mem_cons.1 ha with rfl | ha
          · exact hv
          · exact hb a ha
      · rintro ⟨hp, hb⟩
        have hp' := List.pairwise_cons.1 hp
        exact ⟨⟨hb _ (List.mem_cons_self ..), hp'.1 _ (List.mem_cons_self ..)⟩, hp'.2,
          fun a ha => hb a (List.mem_cons_of_mem _ ha)⟩

/-- What a written list lists: the slot written, and what it listed before. -/
theorem mem_putRecord {st : List (Slot × Record)} {x : Slot} {r : Record} {e : Slot × Record}
    (h : e ∈ putRecord st x r) : (e = (x, r) ∧ r ≠ blankRecord) ∨ e ∈ st := by
  induction st with
  | nil =>
    unfold putRecord at h
    split at h
    · simp at h
    · next hr => simp at h; exact .inl ⟨h, hr⟩
  | cons a rest ih =>
    unfold putRecord at h
    repeat' split at h
    · exact .inr h
    · next hr =>
      rcases List.mem_cons.1 h with h | h
      · exact .inl ⟨h, hr⟩
      · exact .inr h
    · exact .inr (List.mem_cons_of_mem _ h)
    · next hr =>
      rcases List.mem_cons.1 h with h | h
      · exact .inl ⟨h, hr⟩
      · exact .inr (List.mem_cons_of_mem _ h)
    · rcases List.mem_cons.1 h with h | h
      · exact .inr (h ▸ List.mem_cons_self ..)
      · exact (ih h).imp id (List.mem_cons_of_mem _)

/-- Every write keeps the canonical form. -/
theorem storeWf_putRecord (st : List (Slot × Record)) (x : Slot) (r : Record)
    (h : storeWf st = true) : storeWf (putRecord st x r) = true := by
  rw [storeWf_iff] at h ⊢
  refine ⟨?_, fun e he => ?_⟩
  · obtain ⟨hp, -⟩ := h
    induction st with
    | nil => unfold putRecord; split <;> simp
    | cons a rest ih =>
      have hc := List.pairwise_cons.1 hp
      unfold putRecord
      repeat' split
      · exact hp
      · next hx _ =>
        refine List.pairwise_cons.2 ⟨fun b hb => ?_, hp⟩
        rcases List.mem_cons.1 hb with rfl | hb
        · exact hx
        · exact hx.trans (hc.1 b hb)
      · exact hc.2
      · next hx _ => exact List.pairwise_cons.2 ⟨fun b hb => hx ▸ hc.1 b hb, hc.2⟩
      · next h1 h2 =>
        refine List.pairwise_cons.2 ⟨fun b hb => ?_, ih hc.2⟩
        rcases mem_putRecord hb with ⟨rfl, -⟩ | hb
        · exact lt_of_le_of_ne (not_lt.1 h1) fun e => h2 e.symm
        · exact hc.1 b hb
  · rcases mem_putRecord he with ⟨rfl, hr⟩ | he
    · exact hr
    · exact h.2 e he

/-- Changing a slot's record keeps the canonical form. -/
theorem State.storeWf_onRecord (x : Slot) (f : Record → Record) (s : State)
    (h : storeWf s.store = true) : storeWf (s.onRecord x f).store = true :=
  storeWf_putRecord _ _ _ h

/-- A slot's record after a slot's record was changed. -/
theorem State.record_onRecord (x y : Slot) (f : Record → Record) (s : State)
    (h : storeWf s.store = true) :
    (s.onRecord x f).record y = if x = y then f (s.record x) else s.record y :=
  recordAt_putRecord _ _ _ _ h

/-! ### A step and where it stands -/

@[simp] theorem FlightStep.clip_clip (step : FlightStep) (p : Progress) :
    step.clip (step.clip p) = step.clip p := by
  unfold FlightStep.clip; cases step.target <;> cases p <;> rfl

@[simp] theorem FlightStep.clip_first (step : FlightStep) : step.clip step.first = step.first := by
  unfold FlightStep.clip FlightStep.first; cases step.target <;> rfl

/-- A step stands at a part that it has, wherever it is found. -/
theorem FlightStep.clip_reached {step : FlightStep} {known : Progress} (h : step.clip known = known)
    (p : Progress) : step.clip (step.reached known p) = step.reached known p := by
  unfold FlightStep.reached; split
  · exact step.clip_clip p
  · exact h

/-- What finding where the step in flight stands can do: the array keeps its form and the records of other slots,
and of the engine the progress alone changes, to a part that the step has. -/
theorem State.standAt_spec (p : Progress) (s : State) :
    ∃ st fl, s.standAt p = { s with store := st, engine := { s.engine with flight := fl } } ∧
      fl.map (fun f => (f.entry, f.step)) = s.engine.flight.map (fun f => (f.entry, f.step)) ∧
      ((∀ f ∈ s.engine.flight, f.step.clip f.progress = f.progress) →
        ∀ f ∈ fl, f.step.clip f.progress = f.progress) ∧
      (storeWf s.store = true → storeWf st = true ∧
        ∀ x, (∀ f ∈ s.engine.flight, f.entry.slot ≠ x) → recordAt st x = s.record x) := by
  unfold State.standAt
  split
  · exact ⟨s.store, s.engine.flight, rfl, rfl, id, fun h => ⟨h, fun _ _ => rfl⟩⟩
  · next f hf =>
    dsimp only
    split
    · exact ⟨s.store, s.engine.flight, rfl, rfl, id, fun h => ⟨h, fun _ _ => rfl⟩⟩
    · refine ⟨_, _, rfl, by rw [hf]; rfl, fun h g hg => ?_,
        fun h => ⟨State.storeWf_onRecord _ _ _ h, fun x hx => ?_⟩⟩
      · cases hg; exact FlightStep.clip_reached (h f hf) p
      · have := State.record_onRecord f.entry.slot x (f.step.cells (f.step.reached f.progress p)) s h
        rw [if_neg (hx f hf)] at this
        exact this

/-- What a read's suspension of the step in flight can do. -/
theorem State.suspend_spec (s : State) :
    ∃ st fl b n, s.suspend = { s with store := st, moments := n, engine := { s.engine with
        flight := fl, suspended := b } } ∧
      (s.engine.suspended = true → b = true) ∧
      (b = s.engine.suspended → st = s.store ∧ fl = s.engine.flight ∧ n = s.moments) ∧
      fl.map (fun f => (f.entry, f.step)) = s.engine.flight.map (fun f => (f.entry, f.step)) ∧
      ((∀ f ∈ s.engine.flight, f.step.clip f.progress = f.progress) →
        ∀ f ∈ fl, f.step.clip f.progress = f.progress) ∧
      (storeWf s.store = true → storeWf st = true ∧
        ∀ x, (∀ f ∈ s.engine.flight, f.entry.slot ≠ x) → recordAt st x = s.record x) := by
  unfold State.suspend
  split
  · exact ⟨s.store, s.engine.flight, s.engine.suspended, s.moments, rfl, id, fun _ => ⟨rfl, rfl, rfl⟩, rfl,
      id, fun h => ⟨h, fun _ _ => rfl⟩⟩
  · next hn =>
    obtain ⟨st, fl, e, hf, hc, hs⟩ := s.standAt_spec (Config.stepProgress s.moments)
    refine ⟨st, fl, true, s.moments + 1, by rw [e]; rfl, fun _ => rfl, fun h => ?_, hf, hc, hs⟩
    exact absurd (.inr h.symm) hn

/-! ### Reading what was programmed -/

theorem stateOfCode_code (c : CardState) : stateOfCode (c.code.setWidth 3) = some c := by
  cases c <;> rfl

theorem lastPositionOfCode_posCode (p : Option Pos) : lastPositionOfCode (posCode p) = some p := by
  cases p with
  | none => rfl
  | some p => revert p; decide

theorem classOfCode_code (c : CardClass) : classOfCode c.code = some c := by cases c <;> rfl

/-- A value copy programmed with an image within its range reads as that image and generation (R2, R9). -/
theorem readValue_raw (i : Image) (g : Gen) (h : i.balance ≤ Config.maxBalance) :
    readValue (.cells (i.raw g) false) = .good (i, g) := by
  have hb : (BitVec.ofNat 16 i.balance).toNat = i.balance := by
    rw [BitVec.toNat_ofNat]; exact Nat.mod_eq_of_lt (Nat.lt_of_le_of_lt h (by decide))
  simp only [readValue, Granule.read, RawValue.check, Image.raw, stateOfCode_code,
    lastPositionOfCode_posCode, hb, Nat.not_lt.2 h, if_false]
  rfl

/-- A blank or damaged granule is not valid (R1). -/
@[simp] theorem readValue_blank : readValue .blank = .blank := rfl
@[simp] theorem readValue_damaged : readValue .damaged = .bad := rfl
@[simp] theorem readIdentity_blank : readIdentity .blank = .blank := rfl
@[simp] theorem readIdentity_damaged : readIdentity .damaged = .bad := rfl

/-- The two copies of a record, one replaced. -/
@[simp] theorem Record.copy_withCopy_same (r : Record) (c : Copy) (g : Granule RawValue) :
    (r.withCopy c g).copy c = g := by cases c <;> rfl
@[simp] theorem Record.copy_withCopy_other (r : Record) (c : Copy) (g : Granule RawValue) :
    (r.withCopy c.other g).copy c = r.copy c := by cases c <;> rfl
@[simp] theorem Record.identity_withCopy (r : Record) (c : Copy) (g : Granule RawValue) :
    (r.withCopy c g).identity = r.identity := by cases c <;> rfl
@[simp] theorem Copy.other_other (c : Copy) : c.other.other = c := by cases c <;> rfl

end Sys2Proof.Machine
end

