-- ==== Sys2Proof/Laws/Calls.lean ====
section
/-!
SUPPORT. What the operations of claims and calls can touch, said once: `Calls P s t` holds when `t` comes of
`s` by them. Every operation of Queue, Metering, Claims and Reports is shown to keep to it, so that a frame
or an invariant of a command that runs them cites one lemma.
-/

namespace Sys2Proof.Machine

/-- `t` differs from `s` only in what claims and calls of the positions in `P` touch: the queue and the read
list, the directory's entries and claims, the takings, the contexts of those positions, the attention flags,
and the mark on a waiting host action; and where a read suspends the step in flight, its progress, the record it
writes and the count of suspensions. -/
structure Calls (P : Pos → Prop) (s t : State) : Prop where
  suspended : s.engine.suspended = true → t.engine.suspended = true
  running : t.engine.suspended = s.engine.suspended →
    t.store = s.store ∧ t.engine.flight = s.engine.flight ∧ t.moments = s.moments
  store : storeWf s.store = true → storeWf t.store = true ∧
    ∀ x, (∀ f ∈ s.engine.flight, f.entry.slot ≠ x) → t.record x = s.record x
  lines : t.lines = s.lines
  settings : t.settings = s.settings
  pins : t.pins = s.pins
  pending : t.pending = s.pending
  port : t.port = { s.port with result := t.port.result }
  idle : s.port.result = .none → t.port.result = .none
  tariff : t.tariff = { s.tariff with takings := t.tariff.takings }
  takings : (∀ i : Fin 16, s.tariff.takings[i] ≤ Config.maxTakings) →
    ∀ i : Fin 16, s.tariff.takings[i] ≤ t.tariff.takings[i] ∧ t.tariff.takings[i] ≤ Config.maxTakings
  dir : t.dir = { s.dir with entries := t.dir.entries, claims := t.dir.claims }
  flight : t.engine.flight.map (fun f => (f.entry, f.step)) = s.engine.flight.map (fun f => (f.entry, f.step))
  corrected : t.engine.corrected = s.engine.corrected
  locks : t.engine.locks = s.engine.locks
  queue : s.engine.sound → t.engine.sound
  mask : t.attention.mask = s.attention.mask
  mode : t.attention.mode = s.attention.mode
  attention : s.attention.legal → t.attention.legal
  orders : s.ordersCurrent → t.ordersCurrent
  lastClass : ∀ p, (t.ctx p).lastClass = (s.ctx p).lastClass
  enabled : ∀ p, (t.ctx p).enabled = (s.ctx p).enabled
  others : ∀ q, ¬P q → t.ctx q = s.ctx q

namespace Calls

variable {P : Pos → Prop}

theorem refl (s : State) : Calls P s s := by
  constructor <;>
    first | rfl | exact id | exact fun _ => rfl | exact fun _ _ => rfl | exact fun h i => ⟨le_rfl, h i⟩ |
      exact fun _ => ⟨rfl, rfl, rfl⟩ | exact fun h => ⟨h, fun _ _ => rfl⟩

/-- The slots in flight are the same where the entries are. -/
theorem slots_of_flight {s t : State}
    (h : t.engine.flight.map (fun f => (f.entry, f.step)) = s.engine.flight.map (fun f => (f.entry, f.step)))
    {x : Slot} (hx : ∀ f ∈ s.engine.flight, f.entry.slot ≠ x) : ∀ f ∈ t.engine.flight, f.entry.slot ≠ x := by
  intro f hf
  rw [hf] at h
  cases hs : s.engine.flight with
  | none => rw [hs] at h; cases h
  | some g =>
    rw [hs] at h
    simp only [Option.map_some, Option.some.injEq, Prod.mk.injEq] at h
    rw [h.1]; exact hx g hs

theorem trans {s t u : State} (h : Calls P s t) (k : Calls P t u) : Calls P s u where
  suspended := k.suspended ∘ h.suspended
  running := fun e => by
    have ht : t.engine.suspended = s.engine.suspended := by
      cases hs : s.engine.suspended with
      | true => exact h.suspended hs
      | false =>
        cases hu : t.engine.suspended with
        | false => rfl
        | true => rw [hs, k.suspended hu] at e; exact e
    have a := h.running ht
    have b := k.running (e.trans ht.symm)
    exact ⟨b.1.trans a.1, b.2.1.trans a.2.1, b.2.2.trans a.2.2⟩
  store := fun w => by
    obtain ⟨a, b⟩ := h.store w
    obtain ⟨c, d⟩ := k.store a
    exact ⟨c, fun x hx => (d x (slots_of_flight h.flight hx)).trans (b x hx)⟩
  lines := k.lines.trans h.lines
  settings := k.settings.trans h.settings
  pins := k.pins.trans h.pins
  pending := k.pending.trans h.pending
  port := by rw [k.port, h.port]
  idle := k.idle ∘ h.idle
  tariff := by rw [k.tariff, h.tariff]
  takings := fun b i =>
    have m := h.takings b
    ⟨(m i).1.trans (k.takings (fun j => (m j).2) i).1, (k.takings (fun j => (m j).2) i).2⟩
  dir := by rw [k.dir, h.dir]
  flight := k.flight.trans h.flight
  corrected := k.corrected.trans h.corrected
  locks := k.locks.trans h.locks
  queue := k.queue ∘ h.queue
  mask := k.mask.trans h.mask
  mode := k.mode.trans h.mode
  attention := k.attention ∘ h.attention
  orders := k.orders ∘ h.orders
  lastClass := fun p => (k.lastClass p).trans (h.lastClass p)
  enabled := fun p => (k.enabled p).trans (h.enabled p)
  others := fun q hq => (k.others q hq).trans (h.others q hq)

/-- A change of a position that keeps its last-report-class and its host enable mark. -/
theorem onCtx {p : Pos} (hp : P p) (f : Position → Position) (s : State)
    (hl : (f (s.ctx p)).lastClass = (s.ctx p).lastClass)
    (he : (f (s.ctx p)).enabled = (s.ctx p).enabled) : Calls P s (s.onCtx p f) := by
  constructor <;> try
    first | rfl | exact id | exact fun b i => ⟨le_rfl, b i⟩ | exact fun _ => ⟨rfl, rfl, rfl⟩ |
      exact fun h => ⟨h, fun _ _ => rfl⟩
  · intro h q
    rw [State.ctx_onCtx]
    split
    · exact (Position.settled_currentOrder _).symm
    · exact h q
  · intro q
    rw [State.ctx_onCtx]
    split
    · next h => subst h; exact hl
    · rfl
  · intro q
    rw [State.ctx_onCtx]
    split
    · next h => subst h; exact he
    · rfl
  · intro q hq
    exact State.ctx_onCtx_other (p := p) (q := q) (by rintro rfl; exact hq hp) _ _

/-- A change of the directory's entries and claims. -/
theorem onDir (f : Directory → Directory) (s : State)
    (h : f s.dir = { s.dir with entries := (f s.dir).entries, claims := (f s.dir).claims }) :
    Calls P s (s.onDir f) := by
  constructor <;>
    first | rfl | exact id | exact fun _ => rfl | exact h | exact fun _ _ => rfl |
      exact fun b i => ⟨le_rfl, b i⟩ | exact fun _ => ⟨rfl, rfl, rfl⟩ | exact fun h => ⟨h, fun _ _ => rfl⟩

/-- A change of the engine's read side and waiting entries that keeps the queue sound. -/
theorem onEngine (f : Engine → Engine) (s : State) (hf : (f s.engine).flight = s.engine.flight)
    (hs : (f s.engine).suspended = s.engine.suspended)
    (hc : (f s.engine).corrected = s.engine.corrected) (hl : (f s.engine).locks = s.engine.locks)
    (hq : s.engine.sound → (f s.engine).sound) : Calls P s (s.onEngine f) := by
  constructor <;>
    first | rfl | assumption | exact id | exact fun _ => rfl | exact fun _ _ => rfl |
      exact fun b i => ⟨le_rfl, b i⟩ | exact fun h => ⟨h, fun _ _ => rfl⟩ | exact hs.trans |
      exact fun _ => ⟨rfl, hf, rfl⟩ | exact congrArg _ hf

theorem beginPulse_legal {a : Attention} (h7 : a.pulses ≤ 7)
    (hl : a.mode = .level → a.pulses = 0 ∧ a.driving = false) : a.beginPulse.legal := by
  unfold Attention.beginPulse Attention.legal
  split
  · next h =>
    refine ⟨by simp; omega, fun hm => ?_, fun _ => rfl⟩
    have := hl hm; omega
  · next h =>
    refine ⟨h7, hl, fun hp => ?_⟩
    by_contra hd
    exact h ⟨hp, by simpa using hd⟩

theorem beginPulse_mask (a : Attention) : a.beginPulse.mask = a.mask := by
  unfold Attention.beginPulse; split <;> rfl

theorem beginPulse_mode (a : Attention) : a.beginPulse.mode = a.mode := by
  unfold Attention.beginPulse; split <;> rfl

/-- An attention event whose update touches a flag and its detail only. -/
theorem raise (g : Flag) (f : Attention → Attention) (s : State)
    (hm : (f s.attention).mask = s.attention.mask) (ho : (f s.attention).mode = s.attention.mode)
    (hp : (f s.attention).pulses = s.attention.pulses)
    (hd : (f s.attention).driving = s.attention.driving) : Calls P s (s.raise g f) := by
  constructor <;> try
    first | rfl | exact id | exact fun _ => rfl | exact fun _ _ => rfl |
      exact fun b i => ⟨le_rfl, b i⟩ | exact fun _ => ⟨rfl, rfl, rfl⟩ | exact fun h => ⟨h, fun _ _ => rfl⟩
  · show (Attention.afterEvent g s.attention (f s.attention)).mask = _
    unfold Attention.afterEvent; split
    · rw [beginPulse_mask]; exact hm
    · exact hm
  · show (Attention.afterEvent g s.attention (f s.attention)).mode = _
    unfold Attention.afterEvent; split
    · rw [beginPulse_mode]; exact ho
    · exact ho
  · intro h
    show (Attention.afterEvent g s.attention (f s.attention)).legal
    unfold Attention.afterEvent; split
    · next hpulse =>
      refine beginPulse_legal (by simp) (fun hl => ?_)
      simp only [hpulse.1] at hl
      cases hl
    · unfold Attention.legal at h ⊢
      rw [ho, hp, hd]; exact h

theorem raiseHotCard (x : Serial) (p : Pos) (s : State) : Calls P s (s.raiseHotCard x p) :=
  raise _ _ _ rfl rfl rfl rfl

theorem raiseStoreFault (x : Slot) (c : Option (EntryKind × Origin)) (s : State) :
    Calls P s (s.raiseStoreFault x c) := raise _ _ _ rfl rfl rfl rfl

theorem raiseLineFault (l : LineIx) (s : State) : Calls P s (s.raiseLineFault l) :=
  raise _ _ _ rfl rfl rfl rfl

theorem raiseAdmission (s : State) : Calls P s s.raiseAdmission := raise _ _ _ rfl rfl rfl rfl

/-- The flight of an engine that is sound may stand at any progress. -/
theorem sound_flight {e : Engine} {fl : Option Flight} {b : Bool}
    (h : fl.map (fun f => (f.entry, f.step)) = e.flight.map (fun f => (f.entry, f.step)))
    (hc : (∀ f ∈ e.flight, f.step.clip f.progress = f.progress) →
      ∀ f ∈ fl, f.step.clip f.progress = f.progress) (k : e.sound) :
    { e with flight := fl, suspended := b }.sound := by
  obtain ⟨h1, h2, h3, h4⟩ := k
  refine ⟨h1, h2, fun f hf => ?_, h4⟩
  have hf' : fl = some f := hf
  rw [hf'] at h
  cases he : e.flight with
  | none => rw [he] at h; cases h
  | some g =>
    rw [he] at h
    simp only [Option.map_some, Option.some.injEq, Prod.mk.injEq] at h
    obtain ⟨m, a, -⟩ := h3 g he
    refine ⟨?_, by rw [h.1]; exact a, hc (fun f hf => (h3 f hf).2.2) f hf'⟩
    unfold Flight.matched at m ⊢
    rw [h.1, h.2]; exact m

theorem suspend (s : State) : Calls P s s.suspend := by
  obtain ⟨st, fl, b, n, e, hb, hr, hf, hc, hs⟩ := s.suspend_spec
  rw [e]
  constructor <;>
    first | rfl | assumption | exact id | exact fun _ => rfl | exact fun _ _ => rfl |
      exact fun b i => ⟨le_rfl, b i⟩ | exact sound_flight hf hc

theorem requestRead (r : ReadRequest) (s : State) : Calls P s (s.requestRead r) := by
  unfold State.requestRead
  split
  · exact onEngine _ _ rfl rfl rfl rfl id
  · exact (suspend s).trans (onEngine _ _ rfl rfl rfl rfl id)

theorem forPositions (ps : List Pos) (f : Pos → State → State) (s : State)
    (h : ∀ p ∈ ps, ∀ t, Calls P t (f p t)) : Calls P s (Machine.forPositions ps f s) := by
  induction ps generalizing s with
  | nil => exact refl s
  | cons p ps ih =>
    exact (h p (List.mem_cons_self ..) s).trans
      (ih _ fun q hq => h q (List.mem_cons_of_mem _ hq))

/-! ### The directory and the queue -/

theorem onEntry (x : Slot) (f : DirEntry → DirEntry) (s : State) : Calls P s (s.onEntry x f) :=
  onDir _ _ rfl

theorem release (x : Slot) (s : State) : Calls P s (s.release x) := onEntry _ _ _

theorem noteLive (x : Slot) (c : Copy) (g : Gen) (s : State) : Calls P s (s.noteLive x c g) :=
  onEntry _ _ _

theorem onClaim (p : Pos) (f : FlightClaim → FlightClaim) (s : State) : Calls P s (s.onClaim p f) :=
  onDir _ _ rfl

theorem holdBehind (x : Serial) (ps : List Pos) (s : State) : Calls P s (s.holdBehind x ps) :=
  onDir _ _ rfl

theorem foundUnreadable (x : Slot) (s : State) : Calls P s (s.foundUnreadable x) := by
  unfold State.foundUnreadable
  exact (onEntry _ _ _).trans (raise _ _ _ rfl rfl rfl rfl)

theorem markAppeared (x : Slot) (s : State) : Calls P s (s.markAppeared x) := by
  unfold State.markAppeared
  refine Calls.trans (onDir (fun d =>
    { d with claims := d.claims.map fun c => if c.slot = x then { c with appeared := true } else c }) s
    rfl) ?_
  constructor <;> try
    first | rfl | exact id | exact fun _ => rfl | exact fun _ _ => rfl |
      exact fun b i => ⟨le_rfl, b i⟩ | exact fun _ => ⟨rfl, rfl, rfl⟩ | exact fun h => ⟨h, fun _ _ => rfl⟩
  · simp only [State.onPort_port]; split <;> [split; skip] <;> rfl
  · intro h; simp only [State.onPort_port, State.onDir_port] at *; rw [h]; exact h

end Calls

/-- A VALUE entry may join the queue where the record has none waiting; others may always. -/
theorem Engine.sound_join {e : Engine} {w : QueueEntry} (h : e.sound)
    (hw : w.isValue = true → w.slot ∉ e.waitingValues) (ha : w.attempts ≤ 2) (ws : List QueueEntry)
    (hp : ws.Perm (w :: e.waiting)) : { e with waiting := ws }.sound := by
  obtain ⟨h1, h2, h3, h4⟩ := h
  refine ⟨?_, fun v hv => ?_, h3, h4⟩
  · have : ({ e with waiting := ws } : Engine).waitingValues.Perm
        (((w :: e.waiting).filter QueueEntry.isValue).map QueueEntry.slot) := (hp.filter _).map _
    rw [this.nodup_iff, List.filter_cons]
    split
    · next hv => exact List.nodup_cons.2 ⟨hw hv, h1⟩
    · exact h1
  · rcases List.mem_cons.1 (hp.mem_iff.1 hv) with rfl | hv
    · exact ha
    · exact h2 v hv

theorem State.hasWaitingValue_iff (s : State) (x : Slot) :
    s.hasWaitingValue x = true ↔ x ∈ s.engine.waitingValues := by
  simp [State.hasWaitingValue, Engine.waitingValues, and_assoc]

namespace Calls

/-- An entry joins the tail of the queue. -/
theorem joinQueue (e : QueueEntry) (s : State)
    (hw : e.isValue = true → s.hasWaitingValue e.slot = false) (ha : e.attempts ≤ 2) :
    Calls P s (s.joinQueue e) := by
  unfold State.joinQueue
  refine Calls.trans (onEngine _ s rfl rfl rfl rfl fun h => ?_) (markAppeared _ _)
  refine Engine.sound_join h (fun hv hm => ?_) ha _ (List.perm_append_singleton _ _)
  rw [← State.hasWaitingValue_iff, hw hv] at hm
  cases hm

theorem coalesce_map (x : Slot) (image : Image) (origin : Origin) (ws : List QueueEntry) :
    ((ws.map fun e =>
        if e.isValue = true ∧ e.slot = x then { e with work := .value image, origin := origin }
        else e).filter QueueEntry.isValue).map QueueEntry.slot =
      (ws.filter QueueEntry.isValue).map QueueEntry.slot := by
  rw [List.filter_map, List.map_map]
  refine (congrArg (List.map _) (List.filter_congr fun e _ => ?_)).trans
    (List.map_congr_left fun e _ => ?_)
  · simp only [Function.comp]
    split
    · next h => rw [h.1]; rfl
    · rfl
  · simp only [Function.comp]
    split <;> rfl

theorem coalesce (x : Slot) (image : Image) (origin : Origin) (s : State) :
    Calls P s (s.coalesce x image origin) := by
  refine onEngine _ s rfl rfl rfl rfl fun ⟨h1, h2, h3, h4⟩ => ⟨?_, ?_, h3, h4⟩
  · show List.Nodup (List.map QueueEntry.slot (List.filter QueueEntry.isValue _))
    rw [coalesce_map]; exact h1
  · intro w hw
    simp only [List.mem_map] at hw
    obtain ⟨v, hv, rfl⟩ := hw
    split
    · exact h2 v hv
    · exact h2 v hv

theorem offerSettlement (x : Slot) (image : Image) (s : State) :
    Calls P s (s.offerSettlement x image) := by
  unfold State.offerSettlement
  split
  · exact coalesce _ _ _ _
  · next h => exact joinQueue _ _ (fun _ => by simpa using h) (by simp)

/-- A VALUE offer that needs admission. -/
theorem offerValue {x : Slot} {image : Image} {origin : Origin} {s t : State}
    (h : s.offerValue x image origin = some t) : Calls P s t := by
  unfold State.offerValue at h
  split at h
  · cases h; exact coalesce _ _ _ _
  · next hw =>
    split at h
    · cases h; exact joinQueue _ _ (fun _ => by simpa using hw) (by simp)
    · cases h

theorem offerValue_getD (x : Slot) (image : Image) (origin : Origin) (s : State) :
    Calls P s ((s.offerValue x image origin).getD s) := by
  cases h : s.offerValue x image origin with
  | none => exact refl s
  | some t => exact offerValue h

theorem offerRefresh (x : Slot) (s : State) : Calls P s (s.offerRefresh x) := by
  unfold State.offerRefresh
  repeat' split
  all_goals first | exact refl s | exact coalesce _ _ _ _ | exact offerValue_getD _ _ _ _

/-! ### Takings and tariff reads -/

theorem raiseTakingsFull (s : State) : Calls P s s.raiseTakingsFull := raise _ _ _ rfl rfl rfl rfl

theorem addTakings (cls : CardClass) (zone : BitVec 4) (units : Nat) (s : State) :
    Calls P s (s.addTakings cls zone units) := by
  unfold State.addTakings
  split
  · exact refl s
  · have key : Calls P s (s.onTariff fun t =>
        { t with
          takings := t.takings.set (counterIndex cls zone).val
            (min Config.maxTakings (s.tariff.takings[counterIndex cls zone] + units))
            (counterIndex cls zone).isLt }) := by
      constructor <;> try first
        | rfl | exact id | exact fun _ => rfl | exact fun _ _ => rfl | exact fun _ => ⟨rfl, rfl, rfl⟩
        | exact fun h => ⟨h, fun _ _ => rfl⟩
      intro h i
      have := h i
      simp only [State.onTariff_tariff, Fin.getElem_fin, Vector.getElem_set] at this ⊢
      split
      · next e =>
        refine ⟨?_, Nat.min_le_left _ _⟩
        have e' : (s.tariff.takings[i.val]) = s.tariff.takings[(counterIndex cls zone).val] := by
          simp only [e]
        omega
      · exact ⟨le_rfl, this⟩
    dsimp only
    split
    · exact key.trans (raiseTakingsFull _)
    · exact key

theorem afterTariffRead (zone : BitVec 4) (s : State) : Calls P s (s.afterTariffRead zone) := by
  unfold State.afterTariffRead
  split
  · exact refl s
  · exact raise _ _ _ rfl rfl rfl rfl

/-! ### Metering -/

theorem endClaim {p : Pos} (hp : P p) (blocked : Bool) (s : State) : Calls P s (s.endClaim p blocked) := by
  unfold State.endClaim
  split
  · exact refl s
  · exact ((offerSettlement _ _ _).trans (release _ _)).trans (onCtx hp _ _ rfl rfl)

theorem checkpoint {p : Pos} (hp : P p) (s : State) : Calls P s (s.checkpoint p) := by
  unfold State.checkpoint
  split
  · exact refl s
  · exact (offerSettlement _ _ _).trans (onCtx hp _ _ rfl rfl)

theorem debit {p : Pos} (hp : P p) (zone : BitVec 4) (units : Nat) (s : State) :
    Calls P s (s.debit p zone units) := by
  unfold State.debit
  split
  · exact refl s
  · next k _ =>
    have h := (addTakings k.cls zone units s).trans (onCtx hp (Position.spend k.cls units) _ rfl rfl)
    dsimp only
    repeat' split
    · exact refl s
    · exact h.trans (checkpoint hp _)
    · exact h

theorem updateWarn_kept (c : Position) :
    c.updateWarn.lastClass = c.lastClass ∧ c.updateWarn.enabled = c.enabled := by
  unfold Position.updateWarn; split <;> exact ⟨rfl, rfl⟩

theorem meter {p : Pos} (hp : P p) (k : Call) (amount : Nat) (s : State) : Calls P s (s.meter p k amount) := by
  unfold State.meter
  exact ((onCtx hp _ s rfl rfl).trans (debit hp _ _ _)).trans
    (onCtx hp _ _ (updateWarn_kept _).1 (updateWarn_kept _).2)

theorem enterGrace_kept (w a : Nat) (k : Call) (c : Position) :
    (c.enterGrace w a k).lastClass = c.lastClass ∧ (c.enterGrace w a k).enabled = c.enabled := by
  unfold Position.enterGrace; repeat' split
  all_goals exact ⟨rfl, rfl⟩

theorem enterGrace {p : Pos} (hp : P p) (w a : Nat) (k : Call) (s : State) :
    Calls P s (s.onCtx p (Position.enterGrace w a k)) :=
  onCtx hp _ _ (enterGrace_kept _ _ _ _).1 (enterGrace_kept _ _ _ _).2

theorem enterCut {p : Pos} (hp : P p) (v : Verdict) (s : State) : Calls P s (s.onCtx p (Position.enterCut v)) :=
  onCtx hp _ _ rfl rfl

theorem answerEvent {p : Pos} (hp : P p) (zone pulse : BitVec 4) (s : State) :
    Calls P s (s.answerEvent p zone pulse) := by
  unfold State.answerEvent
  dsimp only
  repeat' split
  all_goals
    first
    | exact (afterTariffRead _ _).trans (meter hp _ _ _)
    | exact (afterTariffRead _ _).trans (enterGrace hp _ _ _ _)
    | exact (afterTariffRead _ _).trans (enterCut hp _ _)

theorem intervalExpiry {p : Pos} (hp : P p) (s : State) : Calls P s (s.intervalExpiry p) := by
  unfold State.intervalExpiry
  dsimp only
  repeat' split
  all_goals
    first
    | exact refl s
    | exact (afterTariffRead _ _).trans (meter hp _ _ _)
    | exact (afterTariffRead _ _).trans (enterGrace hp _ _ _ _)
    | exact (afterTariffRead _ _).trans (enterCut hp _ _)

theorem chargePulses {p : Pos} (hp : P p) (rate interval n : Nat) (s : State) :
    Calls P s (s.chargePulses p rate interval n) := by
  induction n generalizing s with
  | zero => exact refl s
  | succ n ih =>
    unfold State.chargePulses
    dsimp only
    repeat' split
    · exact refl s
    · exact (meter hp _ _ _).trans (ih _)
    · exact enterGrace hp _ _ _ _

theorem meteredPulses {p : Pos} (hp : P p) (pulse : BitVec 4) (s : State) :
    Calls P s (s.meteredPulses p pulse) := by
  unfold State.meteredPulses
  split
  · dsimp only
    split
    · exact onCtx hp _ _ rfl rfl
    split
    · exact ((onCtx hp _ _ rfl rfl).trans (afterTariffRead _ _)).trans (enterCut hp _ _)
    · exact ((onCtx hp _ _ rfl rfl).trans (afterTariffRead _ _)).trans (chargePulses hp _ _ _ _)
  · exact refl s

theorem gracePulses {p : Pos} (hp : P p) (pulse : BitVec 4) (s : State) : Calls P s (s.gracePulses p pulse) := by
  unfold State.gracePulses
  split
  · dsimp only
    split
    · exact onCtx hp _ _ rfl rfl
    · split
      · exact ((onCtx hp _ _ rfl rfl).trans (afterTariffRead _ _)).trans (enterCut hp _ _)
      · split
        · exact ((onCtx hp _ _ rfl rfl).trans (afterTariffRead _ _)).trans (enterCut hp _ _)
        · exact ((onCtx hp _ _ rfl rfl).trans (afterTariffRead _ _)).trans (onCtx hp _ _ rfl rfl)
  · exact refl s

theorem graceExpiry {p : Pos} (hp : P p) (s : State) : Calls P s (s.graceExpiry p) := by
  unfold State.graceExpiry
  repeat' split
  all_goals first | exact refl s | exact enterCut hp _ _

theorem gracePayment {p : Pos} (hp : P p) (s : State) : Calls P s (s.gracePayment p) := by
  unfold State.gracePayment
  dsimp only
  repeat' split
  · exact meter hp _ _ _
  · exact (endClaim hp _ _).trans (onCtx hp _ _ rfl rfl)
  · exact refl s

theorem takeAnswer {p : Pos} (hp : P p) (a : ClaimAnswer) (s : State) : Calls P s (s.takeAnswer p a) := by
  unfold State.takeAnswer
  split
  · exact refl s
  · have h := onCtx hp (fun c => { c with outstanding := none }) s rfl rfl
    dsimp only
    split
    · split
      · exact (h.trans (offerSettlement _ _ _)).trans (release _ _)
      · exact h
    · split
      all_goals
        first
        | exact h
        | exact h.trans (onCtx hp _ _ rfl rfl)
        | exact (h.trans (onCtx hp _ _ rfl rfl)).trans (gracePayment hp _)

theorem giveUp {p : Pos} (hp : P p) (target : PosState) (s : State) : Calls P s (s.giveUp p target) := by
  unfold State.giveUp
  exact (endClaim hp _ _).trans (onCtx hp _ _ rfl rfl)

theorem enterLost {p : Pos} (hp : P p) (s : State) : Calls P s (s.enterLost p) := by
  unfold State.enterLost
  dsimp only
  repeat' split
  · exact refl s
  · exact (giveUp hp _ _).trans (raise _ _ _ rfl rfl rfl rfl)
  · exact giveUp hp _ _

theorem enterOff {p : Pos} (hp : P p) (s : State) : Calls P s (s.enterOff p) := by
  unfold State.enterOff
  split
  · exact refl s
  · exact giveUp hp _ _

theorem leaveOff {p : Pos} (hp : P p) (s : State) : Calls P s (s.leaveOff p) := onCtx hp _ _ rfl rfl

theorem blockThrough {p : Pos} (hp : P p) (s : State) : Calls P s (s.blockThrough p) := by
  unfold State.blockThrough
  split
  · exact refl s
  · refine (endClaim hp _ _).trans (onCtx hp _ _ ?_ ?_) <;> dsimp only <;> split <;> rfl

/-! ### Claims -/

theorem completeClaim (x : Serial) (p : Pos) (i : Option Image) (s : State) :
    Calls P s (s.completeClaim x p i).1 := by
  unfold State.completeClaim
  repeat' split
  all_goals
    first
    | exact refl s
    | exact onEntry _ _ _
    | exact raiseHotCard _ _ _
    | exact raiseAdmission _

theorem deliver {p : Pos} (hp : P p) (r : State × ClaimAnswer) : Calls P r.1 (State.deliver p r).1 :=
  takeAnswer hp _ _

theorem startClaim (x : Serial) (sl : Slot) (p : Pos) (c : Copy) (s : State) :
    Calls P s (s.startClaim x sl p c) := by
  unfold State.startClaim
  exact Calls.trans (onDir _ s rfl) (requestRead _ _)

theorem claimArrives {p : Pos} (hp : P p) (x : Serial) (s : State) : Calls P s (s.claimArrives x p).1 := by
  unfold State.claimArrives
  repeat' split
  all_goals
    first
    | exact deliver hp (s, _)
    | exact holdBehind _ _ _
    | exact (completeClaim _ _ _ _).trans (deliver hp _)
    | exact startClaim _ _ _ _ _

theorem answerInUse {ps : List Pos} (hps : ∀ q ∈ ps, P q) (s : State) :
    Calls P s (s.answerInUse ps) :=
  forPositions _ _ _ fun q hq _ => takeAnswer (hps q hq) _ _

theorem retryHeld (x : Serial) {ps : List Pos} (hps : ∀ q ∈ ps, P q) (s : State) :
    Calls P s (s.retryHeld x ps) := by
  induction ps generalizing s with
  | nil => exact refl s
  | cons p ps ih =>
    unfold State.retryHeld
    have hps' : ∀ q ∈ ps, P q := fun q hq => hps q (List.mem_cons_of_mem _ hq)
    have h := claimArrives (hps p (List.mem_cons_self ..)) x s
    split
    · next t e => rw [e] at h; exact h.trans (answerInUse hps' _)
    · next t e => rw [e] at h; exact h.trans (ih hps' _)
    · next t e => rw [e] at h; exact h.trans (holdBehind _ _ _)

theorem finishClaim (c : FlightClaim) (i : Option Image) (s : State) :
    Calls (fun _ => True) s (s.finishClaim c i) := by
  unfold State.finishClaim
  dsimp only
  have h := ((onDir (fun d => { d with claims := d.claims.filter fun k => k.position != c.position }) s
    rfl).trans (completeClaim c.serial c.position i _)).trans
      (takeAnswer (p := c.position) (P := fun _ => True) trivial (State.completeClaim c.serial c.position i
        (s.onDir fun d => { d with claims := d.claims.filter fun k => k.position != c.position })).2 _)
  split
  · exact h.trans (answerInUse (fun _ _ => trivial) _)
  · exact h.trans (retryHeld _ (fun _ _ => trivial) _)

theorem resolveClaim (p : Pos) (i : Option Image) (s : State) : Calls (fun _ => True) s (s.resolveClaim p i) := by
  unfold State.resolveClaim
  repeat' split
  all_goals
    first
    | exact refl s
    | exact finishClaim _ _ _
    | exact (onClaim _ _ _).trans (requestRead _ _)

theorem claimRead (p : Pos) (c : Copy) (o : ReadOutcome (Image × Gen)) (s : State) :
    Calls (fun _ => True) s (s.claimRead p c o) := by
  unfold State.claimRead
  dsimp only
  repeat' split
  all_goals
    first
    | exact refl s
    | exact ((noteLive _ _ _ _).trans (offerRefresh _ _)).trans (resolveClaim _ _ _)
    | exact (offerRefresh _ _).trans (resolveClaim _ _ _)
    | exact (noteLive _ _ _ _).trans (resolveClaim _ _ _)
    | exact resolveClaim _ _ _
    | exact (foundUnreadable _ _).trans (resolveClaim _ _ _)
    | exact (onClaim _ _ _).trans (requestRead _ _)

theorem sendClaim {p : Pos} (hp : P p) (x : Serial) (s : State) : Calls P s (s.sendClaim p x) := by
  unfold State.sendClaim
  dsimp only
  split
  · refine onCtx hp _ _ ?_ ?_ <;> split <;> rfl
  · refine Calls.trans (onCtx hp _ _ ?_ ?_) (claimArrives hp _ _) <;> split <;> rfl

/-! ### Reports -/

theorem unpaidTest {p : Pos} (hp : P p) (zone : BitVec 4) (s : State) : Calls P s (s.unpaidTest p zone) := by
  unfold State.unpaidTest
  dsimp only
  repeat' split
  all_goals
    first
    | exact afterTariffRead _ _
    | exact (afterTariffRead _ _).trans (enterCut hp _ _)

theorem vacantReport {p : Pos} (hp : P p) (r : Report) (s : State) : Calls P s (s.vacantReport p r) := by
  unfold State.vacantReport
  repeat' split
  all_goals first | exact refl s | exact onCtx hp _ _ rfl rfl | exact unpaidTest hp _ _

theorem cardLeft {p : Pos} (hp : P p) (r : Report) (s : State) : Calls P s (s.cardLeft p r) :=
  (onCtx hp _ _ rfl rfl).trans (vacantReport hp _ _)

theorem unpaidCutReport {p : Pos} (hp : P p) (r : Report) (x : Option Serial) (s : State) :
    Calls P s (s.unpaidCutReport p r x) := by
  unfold State.unpaidCutReport
  have h : Calls P s (if r.present = false ∨ differs x (s.ctx p).refusedSerial = true then
      s.onCtx p Position.clearRefused else s) := by
    split
    · exact onCtx hp _ _ rfl rfl
    · exact refl s
  dsimp only
  generalize (if r.present = false ∨ differs x (s.ctx p).refusedSerial = true then
      s.onCtx p Position.clearRefused else s) = t at h ⊢
  repeat' split
  all_goals
    first
    | exact h
    | exact h.trans (onCtx hp _ _ rfl rfl)
    | exact h.trans ((onCtx hp _ _ rfl rfl).trans (vacantReport hp _ _))

theorem readingReport {p : Pos} (hp : P p) (r : Report) (x : Option Serial) (s : State) :
    Calls P s (s.readingReport p r x) := by
  unfold State.readingReport
  repeat' split
  all_goals first | exact cardLeft hp _ _ | exact sendClaim hp _ _ | exact refl s

theorem checkingReport {p : Pos} (hp : P p) (r : Report) (x : Option Serial) (s : State) :
    Calls P s (s.checkingReport p r x) := by
  unfold State.checkingReport
  repeat' split
  all_goals
    first
    | exact (onCtx hp _ _ rfl rfl).trans (cardLeft hp _ _)
    | exact onCtx hp _ _ rfl rfl
    | exact refl s

theorem waitingReport {p : Pos} (hp : P p) (r : Report) (x : Option Serial) (s : State) :
    Calls P s (s.waitingReport p r x) := by
  unfold State.waitingReport
  repeat' split
  all_goals first | exact cardLeft hp _ _ | exact sendClaim hp _ _ | exact refl s

theorem heldReport {p : Pos} (hp : P p) (r : Report) (x : Option Serial) (s : State) :
    Calls P s (s.heldReport p r x) := by
  unfold State.heldReport
  repeat' split
  all_goals
    first
    | exact (endClaim hp _ _).trans (cardLeft hp _ _)
    | exact (endClaim hp _ _).trans (sendClaim hp _ _)
    | exact refl s
    | exact answerEvent hp _ _ _

theorem refusedReport {p : Pos} (hp : P p) (r : Report) (x : Option Serial) (s : State) :
    Calls P s (s.refusedReport p r x) := by
  unfold State.refusedReport
  repeat' split
  all_goals
    first
    | exact (onCtx hp _ _ rfl rfl).trans (cardLeft hp _ _)
    | exact refl s
    | exact (onCtx hp _ _ rfl rfl).trans (sendClaim hp _ _)
    | exact unpaidTest hp _ _

theorem cutCard {p : Pos} (hp : P p) (r : Report) (x : Option Serial) (s : State) :
    Calls P s (s.cutCard p r x) := by
  unfold State.cutCard
  dsimp only
  repeat' split
  all_goals
    first
    | exact endClaim hp _ _
    | exact refl s
    | exact onCtx hp _ _ rfl rfl
    | (refine onCtx hp _ _ ?_ ?_ <;> repeat' split) <;> rfl

theorem cutEnd {p : Pos} (hp : P p) (r : Report) (s : State) : Calls P s (s.cutEnd p r) := by
  unfold State.cutEnd
  dsimp only
  repeat' split
  all_goals
    first
    | exact onCtx hp _ _ rfl rfl
    | exact (onCtx hp _ _ rfl rfl).trans (vacantReport hp _ _)

theorem cutReport {p : Pos} (hp : P p) (r : Report) (x : Option Serial) (s : State) :
    Calls P s (s.cutReport p r x) := by
  unfold State.cutReport
  dsimp only
  repeat' split
  all_goals
    first
    | exact unpaidCutReport hp _ _ _
    | exact (cutCard hp _ _ _).trans (cutEnd hp _ _)
    | exact cutCard hp _ _ _

theorem hangUp {p : Pos} (hp : P p) (s : State) : Calls P s (s.hangUp p) := onCtx hp _ _ rfl rfl

theorem meteredRest {p : Pos} (hp : P p) (r : Report) (x : Option Serial) (s : State) :
    Calls P s (s.meteredRest p r x) := by
  unfold State.meteredRest
  repeat' split
  all_goals
    first
    | exact (hangUp hp _).trans (heldReport hp _ _ _)
    | exact (endClaim hp _ _).trans (enterCut hp _ _)
    | exact refl s

theorem graceCard {p : Pos} (hp : P p) (r : Report) (x : Option Serial) (s : State) :
    Calls P s (s.graceCard p r x) := by
  unfold State.graceCard
  dsimp only
  repeat' split
  all_goals
    first
    | exact refl s
    | exact onCtx hp _ _ rfl rfl
    | exact sendClaim hp _ _
    | exact (endClaim hp _ _).trans (onCtx hp _ _ rfl rfl)
    | exact (endClaim hp _ _).trans (sendClaim hp _ _)
    | exact (onCtx hp _ _ rfl rfl).trans (sendClaim hp _ _)

theorem graceEnd {p : Pos} (hp : P p) (s : State) : Calls P s (s.graceEnd p) := onCtx hp _ _ rfl rfl

theorem graceRest {p : Pos} (hp : P p) (r : Report) (x : Option Serial) (s : State) :
    Calls P s (s.graceRest p r x) := by
  unfold State.graceRest
  dsimp only
  repeat' split
  · exact graceCard hp _ _ _
  · exact (graceCard hp _ _ _).trans (graceEnd hp _)
  · exact (graceCard hp _ _ _).trans (hangUp hp _)
  · exact graceCard hp _ _ _

theorem pulses {p : Pos} (hp : P p) (pulse : BitVec 4) (s : State) : Calls P s (s.pulses p pulse) := by
  unfold State.pulses
  split
  · exact meteredPulses hp _ _
  · exact gracePulses hp _ _
  · exact refl s

theorem reportByState {p : Pos} (hp : P p) (r : Report) (x : Option Serial) (s : State) :
    Calls P s (s.reportByState p r x) := by
  unfold State.reportByState
  split
  · exact refl s
  · exact refl s
  · exact vacantReport hp _ _
  · exact readingReport hp _ _ _
  · exact checkingReport hp _ _ _
  · exact waitingReport hp _ _ _
  · exact heldReport hp _ _ _
  · exact refusedReport hp _ _ _
  · exact meteredRest hp _ _ _
  · exact graceRest hp _ _ _
  · exact cutReport hp _ _ _

theorem validReport {p : Pos} (hp : P p) (r : Report) (s : State) : Calls P s (s.validReport p r) := by
  unfold State.validReport
  split
  · exact refl s
  · refine ((Calls.trans (onCtx hp _ _ ?_ ?_) (pulses hp _ _)).trans (onCtx hp _ _ rfl rfl)).trans
      (reportByState hp _ _ _) <;> dsimp only <;> split <;> rfl

theorem silentCycle {p : Pos} (hp : P p) (s : State) : Calls P s (s.silentCycle p) := by
  unfold State.silentCycle
  dsimp only
  repeat' split
  · exact refl s
  · exact (onCtx hp _ _ rfl rfl).trans (enterLost hp _)
  · exact onCtx hp _ _ rfl rfl

end Calls

end Sys2Proof.Machine
end

