-- ==== Sys2Proof/Laws/Frames.lean ====
section
/-!
SUPPORT. What the taking of a frame can do, said once: a frame that is acted on runs its action on
`State.taken`, and every other frame leaves what the lemmas below say.
-/

namespace Sys2Proof.Machine

theorem endTransfer_of_listens {s : State} (h : s.listens) : s.endTransfer true = s.taken := by
  unfold State.endTransfer State.taken State.onPort
  rcases h.2 with h | h <;> simp [h]

/-- A frame that the part listens to runs its action. -/
theorem takeFrame_of_listens {s : State} (h : s.listens) (act : State → State) :
    takeFrame act s = act s.taken := by
  unfold takeFrame State.inReset
  simp only [h.1, Bool.not_true, Bool.false_eq_true, if_false, endTransfer_of_listens h]
  simp [State.taken]

/-- A frame that comes while an answer is waited for is passed over. -/
theorem takeFrame_of_waiting {s : State} (hp : s.pins.released = true) (hr : s.port.result ≠ .none)
    (hd : s.port.delivers = false) (act : State → State) : takeFrame act s = s.passed := by
  unfold takeFrame State.inReset State.endTransfer State.passed State.onPort
  simp [hp, hr, hd]

/-- A frame that comes while a reset lasts is not taken. -/
theorem takeFrame_of_reset {s : State} (hp : s.pins.released = false) (act : State → State) :
    takeFrame act s = s := by
  unfold takeFrame State.inReset
  simp [hp]

/-- An event of the part's own blocks takes effect once no reset lasts. -/
theorem unlessReset_of_released {s : State} (h : s.pins.released = true) (act : State → State) :
    unlessReset act s = act s := by
  unfold unlessReset State.inReset
  simp [h]

theorem unlessReset_of_reset {s : State} (h : s.pins.released = false) (act : State → State) :
    unlessReset act s = s := by
  unfold unlessReset State.inReset
  simp [h]

theorem whenRunning_of_running {s : State} (h : s.port.mode = .running) (act : State → State) :
    whenRunning act s = act s := by
  unfold whenRunning
  simp [h]

theorem whenRunning_of_other {s : State} (h : s.port.mode ≠ .running) (act : State → State) :
    whenRunning act s = s.answer .notReady 0 := by
  unfold whenRunning
  simp [h]

theorem latched_of_armed {s : State} (h : s.port.mode = .running) (hl : s.port.latch = true)
    (act : State → State) : latched act s = act s := by
  unfold latched
  simp [h, hl]

@[simp] theorem State.taken_answer (code : ReplyCode) (data : Word) (s : State) :
    s.taken.answer code data = s.replied code data := rfl

@[simp] theorem State.taken_answerLatched (code : ReplyCode) (data : Word) (s : State) :
    s.taken.answerLatched code data = s.repliedLatched code data := rfl

@[simp] theorem State.taken_mode (s : State) : s.taken.port.mode = s.port.mode := rfl
@[simp] theorem State.taken_latch (s : State) : s.taken.port.latch = s.port.latch := rfl
@[simp] theorem State.taken_result (s : State) : s.taken.port.result = .none := rfl
@[simp] theorem State.taken_staging (s : State) : s.taken.port.staging = s.port.staging := rfl
@[simp] theorem State.taken_buffer (s : State) : s.taken.port.buffer = s.port.buffer := rfl
@[simp] theorem State.taken_pointer (s : State) : s.taken.port.pointer = s.port.pointer := rfl
@[simp] theorem State.taken_store (s : State) : s.taken.store = s.store := rfl
@[simp] theorem State.taken_engine (s : State) : s.taken.engine = s.engine := rfl
@[simp] theorem State.taken_dir (s : State) : s.taken.dir = s.dir := rfl
@[simp] theorem State.taken_tariff (s : State) : s.taken.tariff = s.tariff := rfl
@[simp] theorem State.taken_lines (s : State) : s.taken.lines = s.lines := rfl
@[simp] theorem State.taken_positions (s : State) : s.taken.positions = s.positions := rfl
@[simp] theorem State.taken_settings (s : State) : s.taken.settings = s.settings := rfl
@[simp] theorem State.taken_attention (s : State) : s.taken.attention = s.attention := rfl
@[simp] theorem State.taken_pins (s : State) : s.taken.pins = s.pins := rfl
@[simp] theorem State.taken_pending (s : State) : s.taken.pending = s.pending := rfl
@[simp] theorem State.taken_ctx (s : State) (p : Pos) : s.taken.ctx p = s.ctx p := rfl
@[simp] theorem State.taken_line (s : State) (l : LineIx) : s.taken.line l = s.line l := rfl

end Sys2Proof.Machine
end

