-- ==== Sys2Proof/Tests/Slice0.lean ====
section
/-!
SUPPORT. Tests. Each is one step on a small state, or one configuration; every expected result is the spec's own
example or is worked by hand from the rule its docstring names. The `witness_` theorems show that the hypotheses
of the obligation they are named for can be met, each clause at a boundary of its range.
-/

namespace Sys2Proof.Tests

open Sys2Proof Sys2Proof.Machine

set_option maxRecDepth 4000

/-! ### States to start from -/

/-- The state after a command. -/
def after (c : Instr) (s : State) : State :=
  match exec c s with
  | .next t => t
  | _ => s

/-- The reset is over and the rebuild still to begin. -/
def starting : State := { State.reset with pins := { Pins.reset with resetn := false } }

/-- The part RUNNING over a blank array, with the free slots of the example of 8.12. -/
def ran : State :=
  { starting with
    port := { Port.reset with mode := .running }
    dir := { Directory.reset with ready := true, free := [14, 15, 1100] } }

/-- The same with the latch set and region 2 unlocked (8.12). -/
def armed : State :=
  { ran with
    port := { ran.port with latch := true }, engine := { ran.engine with locks := 65531 } }

/-- The same with an answer that no transfer delivers yet. -/
def unsent : State := { ran with port := { ran.port with result := .unsent } }

/-- Card P of 10: a STANDARD card in slot 640. -/
def cardP (use : BitVec 16) : Claim :=
  { slot := 640, serial := 1200007, cls := .standard
    image := { state := .active, balance := 33, expiry := 0, useCount := use, lastPosition := some 12
               lastUseDay := 7 } }

/-- P's record: copy A live with generation 21 (10). -/
def recordP : Record :=
  { identity := .cells { serial := 1200007, classCode := 0, faceValue := 50, issueDay := 3 } false
    copyA := .cells ((cardP 12).image.raw 21) false
    copyB := .blank }

/-- P's entry in the directory. -/
def entryP (claimed : Option Pos) : DirEntry :=
  { serial := 1200007, slot := 640, cls := .standard, condition := .good, claimedBy := claimed
    live := some (.a, 21) }

/-- The tariff of 6.7 at a second of the day. -/
def tariffAt (second : Nat) (band : BitVec 2) : Tariff :=
  let entry (charge : BitVec 8) (interval : BitVec 13) (rate : BitVec 10) : TariffEntry :=
    ({ TariffEntry.reset with
      valid := true, initialCharge := charge, interval := interval, standardRate := rate } : TariffEntry).withCheck
  { (((Tariff.reset.putEntry 3 1 (entry 2 300 6)).putEntry 3 3 (entry 3 200 9)).putEntry 15 1
      (entry 3 300 10)).putEntry 15 3 (entry 3 200 12) with
    schedule := [(420, 3), (570, 1), (1020, 3), (1140, 1), (1320, 0)], band := band, day := 7
    second := second, daySet := true, timeSet := true }

/-- Line B with its window open for position 13's report, P in the directory. -/
def bank (claimed : Option Pos) (band : BitVec 2) : State :=
  { ran.onLine 1 (fun c => { c with state := .running, phase := .window 4 }) with
    store := [(640, recordP)]
    dir := { ran.dir with entries := [entryP claimed] }
    tariff := tariffAt 61200 band }

/-- Position 13 as the line prepared it. -/
def vacant : State := (bank none 1).withCtx 12 { Position.reset with state := .vacant }

/-- Position 13 holding P with W 33 (10, 16:58:42.5). -/
def held : State :=
  (bank (some 12) 1).withCtx 12 { Position.reset with
    state := .held, claim := some (cardP 13), claimBalance := 33, working := 33
    order := { verdict := .accepted, warn := false, shown := 33 } }

/-- The call of position 13 on zone 3 (10). -/
def callP : Call :=
  { zone := 3, rateUsed := 6, interval := 300, phase := 2, intervalTimer := some 1, amount := 0
    graceTimer := none, lastPulse := none, sub := .old }

/-- Position 13 METERED on P with band 3 current, before the expiry of 17:00:05 (10). -/
def metered (working debited : Nat) : State :=
  (bank (some 12) 3).withCtx 12 { Position.reset with
    state := .metered, claim := some (cardP 13), claimBalance := 33, working := working, debited := debited
    call := some callP, order := { verdict := .accepted, warn := false, shown := working } }

/-- Position 13 in GRACE with 6 owed. -/
def inGrace (sub : SubState) : State :=
  (bank (some 12) 3).withCtx 12 { Position.reset with
    state := .grace, claim := some (cardP 13), claimBalance := 33, working := 2
    call := some { callP with intervalTimer := none, graceTimer := some 1, amount := 6, sub := sub }
    order := { verdict := .grace, warn := false, shown := 6 } }

/-- A report of position 13, as its telephone sends it (11.1). -/
def report (hook present high : Bool) (half : BitVec 16) (zone pulse : BitVec 4) : BitVec 38 :=
  let body : BitVec 33 :=
    13#6 ++ BitVec.ofBool hook ++ BitVec.ofBool present ++ BitVec.ofBool high ++ half ++ zone ++ pulse
  body ++ crc5 (msbFirst body)

/-- The report received in slot 4's window, from 46.0 ms to 47.9 ms (3.9). -/
def reported (bits : BitVec 38) (s : State) : State :=
  s.onLine 1 fun c => { c with record := .one { start := 46000, finish := some (47900, bits) } }

/-- A VALUE entry of the host for P's slot. -/
def valueEntry (attempts : Nat) : QueueEntry :=
  { work := .value (cardP 13).image, slot := 640, attempts := attempts, origin := .host }

/-- The part writing that entry to copy B. -/
def writing (attempts : Nat) : State :=
  { bank none 1 with
    engine := { ran.engine with
      flight := some { entry := valueEntry attempts, step := .writeValue .b 22, progress := .programming } } }

/-- The part reading a granule of P's record for someone. -/
def reading (who : Requester) (s : State) : State :=
  { s with engine := { s.engine with reading := some { who := who, slot := 640, granule := .copyA } } }

/-! ### Well-formed commands -/

theorem test_report_takes_its_time : (Instr.transmissionEnd 0 1900 0).wellFormed = true := by decide
theorem test_too_short_a_report_is_ill_formed : (Instr.transmissionEnd 0 1899 0).wellFormed = false := by decide

/-! ### Frames, with words worked by hand from 11.2 and the check of R148 -/

theorem test_decode_read_status : decodeFrame 0 0x0100000D = .readStatus := by decide
theorem test_decode_serial_high : decodeFrame 2 0x88012346 = .serialHigh 4660 := by decide
theorem test_decode_stage_tariff_a : decodeFrame 1 0x4E340024 = .stageTariffA 3 1 2 := by decide
/-- Unit 3, kind 34, minute 1320, band 2. -/
theorem test_decode_write_band : decodeFrame 3 0xE2014A23 = .writeBand 1320 2 := by decide
/-- Kind 40, line 5, period 100. -/
theorem test_decode_configure_line_period : decodeFrame 0 0x28A00649 = .configureLinePeriod 5 100 := by decide
theorem test_decode_unknown_kind : decodeFrame 0 0x3C00007B = .badKind := by decide
theorem test_decode_other_unit : decodeFrame 1 0x0100000D = .frameForOtherUnit := by decide
theorem test_decode_wrong_check : decodeFrame 0 0x0100000C = .transferIgnored := by decide
theorem test_decode_short_transfer : decodeTransfer 0 (msbFirst 0x0100000D#31) = .transferIgnored := by decide
theorem test_decode_whole_transfer : decodeTransfer 0 (msbFirst 0x0100000D#32) = .readStatus := by decide

/-! ### The station port -/

/-- RS and RDY in bits 15 and 14, mode RUNNING (11.2); RS is then clear (R153). -/
theorem test_read_status :
    (after .readStatus ran).port.reply = { code := .ok, data := 0xC000 } ∧
    (after .readStatus ran).port.rs = false := by decide

/-- The reply NO REPLY with data 0 after a reset, and BAD KIND with its check's two lowest bits inverted: the
words 0xC3F0000x and 0xC010000x of 11.2. -/
theorem test_reply_words :
    ran.replyWord.extractLsb' 4 28 = 0xC3F0000 ∧ (after .badKind ran).replyWord.extractLsb' 4 28 = 0xC010000 ∧
    (after .badKind ran).replyWord.extractLsb' 0 4 = crc4 (msbFirst 0xC010000#28) ^^^ 3 := by decide

/-- The reply is shifted out only after the part's own frame (R149). -/
theorem test_transfer_start :
    ((after .transferStart (after .readStatus ran)).sdo 0, (after .transferStart ran).sdo 0) =
      (some false, none) := by decide

theorem test_transfer_ignored_sets_fe : (after .transferIgnored ran).port.fe = true := by decide

/-- The next frame after an unsent answer is passed over unless its transfer delivered the answer (R151). -/
theorem test_unsent_answers_are_delivered :
    (after .enableWrite unsent).port.latch = false ∧
    (after .enableWrite (after .transferStart { unsent with
      port := { unsent.port with ownerMark := true } })).port.latch = true := by decide

/-- The empty marker of an empty buffer (R171). -/
theorem test_read_buffer_empty :
    (after .readBuffer ran).port.reply = { code := .ok, data := 0xFFF0 } := by decide

/-- 4,660 × 65,536 + 22,136 is 305,419,896 (8.12). -/
theorem test_serial_halves :
    (after (.serialLow 22136) (after (.serialHigh 4660) ran)).port.staging.serial = 305419896 := by decide

theorem test_stage_class_3_is_out_of_range :
    (after (.stageClass 3) ran).port.reply.code = .range ∧
    (after (.stageClass 2) ran).port.staging.cls = .service := by decide

theorem test_stage_slot_range :
    (after (.stageSlot 8192) ran).port.reply.code = .range ∧
    (after (.stageSlot 8191) ran).port.staging.slot = 8191 := by decide

/-- ISSUE without the latch (8.12). -/
theorem test_issue_needs_the_latch : (after .issue ran).port.reply.code = .noWriteEnable := by decide

/-- The lock state with region 2 clear is 65,531, and the latch is spent (8.12). -/
theorem test_unlock_region :
    (after (.unlockRegion 2) (after .enableWrite ran)).port.reply = { code := .ok, data := 65531 } ∧
    (after (.unlockRegion 2) (after .enableWrite ran)).port.latch = false := by decide

/-! ### Cards and slots -/

/-- The staging of the example of 8.12. -/
def issuing : State :=
  { armed with port := { armed.port with
      staging := { armed.port.staging with serial := 305419896, value := 500 } } }

/-- ISSUE passes over slots 14 and 15 and takes slot 1,100 (8.12). -/
theorem test_issue_takes_slot_1100 :
    (after .issue issuing).port.reply = { code := .ok, data := 1100 } ∧
    (after .issue issuing).dir.free = [14, 15] ∧
    (after .issue issuing).dir.entries.map (fun e => (e.serial, e.slot.val, e.condition)) =
      [(305419896, 1100, .issuing)] := by decide

/-- ISSUE again with the latch set is answered EXISTS (8.12). -/
theorem test_issue_again_exists :
    (after .issue (after .enableWrite (after .issue issuing))).port.reply.code = .exists := by decide

/-- P's bank with the latch set, P's serial staged and every region unlocked. -/
def host (value : BitVec 16) (claimed : Option Pos) : State :=
  let s := bank claimed 1
  { s with
    port := { s.port with
      latch := true, staging := { s.port.staging with serial := 1200007, value := value, slot := 640 } }
    engine := { s.engine with locks := 0 } }

/-- CREDIT waits for the live copy: NO REPLY with data 1, the latch kept (8.12, transfer 3). -/
theorem test_credit_waits :
    (after .credit (host 200 none)).port.reply = { code := .noReply, data := 1 } ∧
    (after .credit (host 200 none)).port.latch = true ∧
    (after .credit (host 200 none)).engine.reading =
      some { who := .host, slot := 640, granule := .copyA } := by decide

/-- The read completes: the answer is unsent with the new balance, 33 + 200, and an entry is queued (8.12). -/
theorem test_credit_completes :
    (after (.storeReadComplete .asHeld) (after .credit (host 200 none))).port.reply =
      { code := .ok, data := 233 } ∧
    (after (.storeReadComplete .asHeld) (after .credit (host 200 none))).engine.waiting.map
      (fun e => e.image.map fun i => (i.state, i.balance)) = [some (.active, 233)] := by decide

theorem test_set_expiry_of_a_claimed_card : (after .setExpiry (host 0 (some 12))).port.reply.code = .inUse := by
  decide

/-- SET EXPIRY leaves the state as it is, at balance 0 too (R161). -/
theorem test_set_expiry_keeps_the_state :
    let s := host 0 none
    (after .setExpiry { s with engine := { s.engine with waiting :=
      [{ valueEntry 0 with work := .value { (cardP 13).image with balance := 0 } }] } }).engine.waiting.map
        (fun e => e.image.map Image.state) = [some .active] := by decide

/-- UNBLOCK of a card that is not BLOCKED is BAD STATE once its image is read (8.7). -/
theorem test_unblock_of_an_active_card :
    (after (.storeReadComplete .asHeld) (after .unblock (host 0 none))).port.reply.code = .badState := by decide

theorem test_block_queues_blocked :
    (after (.storeReadComplete .asHeld) (after .block (host 0 none))).engine.waiting.map
      (fun e => e.image.map Image.state) = [some .blocked] := by decide

/-- RETIRE takes the entry out, makes the slot an orphan and queues the erase (2.7). -/
theorem test_retire :
    (after .retire (host 0 none)).dir.entries = [] ∧ (after .retire (host 0 none)).dir.orphans = 1 ∧
    (after .retire (host 0 none)).engine.waiting.map QueueEntry.work = [.retire] := by decide

theorem test_erase_slot_of_an_indexed_slot : (after .eraseSlot (host 0 none)).port.reply.code = .badState := by
  decide

/-- QUERY SLOT of a free slot: class free and the slot number, one word (11.3). -/
theorem test_query_slot_free :
    (after .querySlot { ran with port := { ran.port with
      staging := { ran.port.staging with slot := 15 } } }).port.buffer = [15] := by decide

/-- A query of P after both reads: serial 18 and 20,359, slot 640, balance 33 (11.3, 10). -/
theorem test_query_card :
    (after (.storeReadComplete .asHeld) (after (.storeReadComplete .asHeld)
      (after .queryCard (host 0 (some 12))))).port.buffer =
      [18, 20359, 640, 13, 21, 50, 3, 0x400D, 33, 0, 12, 7] := by decide

/-! ### The tariff unit -/

/-- Interval 9,000 is taken as 6,000 (6.7). -/
theorem test_write_tariff_clamps :
    (after .writeTariff { ran with port := { ran.port with
      staging := { ran.port.staging with zone := 3, band := 1, initialCharge := 2, interval := 9000 } } }).port.reply =
      { code := .ok, data := 6000 } := by decide

/-- Initial charge 300 is refused (6.7). -/
theorem test_write_tariff_range :
    (after .writeTariff { ran with port := { ran.port with
      staging := { ran.port.staging with zone := 3, initialCharge := 300 } } }).port.reply.code = .range := by decide

theorem test_bar_zone :
    ((after (.barZone 15 3) (bank none 3)).tariff.entry 15 3).valid = false ∧
    ((after (.barZone 15 3) (bank none 3)).tariff.entry 15 3).standardRate = 12 := by decide

/-- The bands of the example of 6.4. -/
theorem test_bands_of_the_day :
    [7200, 25200, 61199, 61200, 82800].map (bandAt (tariffAt 0 0).schedule) = [0, 3, 1, 3, 0] := by decide

/-- Five entries are held; with minute 1,320 cleared the night is band 1 (6.4). -/
theorem test_clear_band :
    (after (.clearBand 1320) { ran with tariff := tariffAt 82800 0 }).port.reply =
      { code := .ok, data := 0x41 } := by decide

theorem test_write_band : (after (.writeBand 1440 1) ran).port.reply.code = .range := by decide

/-- The band change event at 17:00 (6.4). -/
theorem test_clock_step_changes_the_band :
    (after .clockStep { ran with tariff := tariffAt 61199 1 }).tariff.band = 3 ∧
    (after .clockStep { ran with tariff := tariffAt 61199 1 }).tariff.second = 61200 := by decide

/-- Midnight (R122). -/
theorem test_clock_step_rolls_the_day :
    (after .clockStep { ran with tariff := tariffAt 86399 0 }).tariff.day = 8 ∧
    (after .clockStep { ran with tariff := tariffAt 86399 0 }).tariff.second = 0 := by decide

/-- The clock is UNSET until both frames have been accepted (R123). -/
theorem test_set_day_and_time :
    (after (.setDay 5) ran).port.reply.data = 1 ∧
    (after (.setTime 0) (after (.setDay 5) ran)).port.reply.data = 0 := by decide

/-- Counter 3 at its limit stands at words 4 and 5, and one counter was saturated (6.7). -/
theorem test_collect_takings :
    let t := after .collectTakings { ran with
      tariff := { ran.tariff with takings := ran.tariff.takings.set 2 4294967295 } }
    t.port.reply.data = 1 ∧ t.port.buffer.take 6 = [0, 0, 0, 0, 65535, 65535] := by decide

/-! ### The row lines -/

/-- A period of 39 ms is taken as 40 ms, into which the default windows of 84.0 ms do not fit (R43). -/
theorem test_line_period_must_hold_the_windows :
    (after (.configureLinePeriod 0 39) ran).port.reply.code = .range ∧
    (after (.configureLinePeriod 0 251) ran).port.reply = { code := .ok, data := 250 } := by decide

/-- A pitch of 25.6 ms is out of range (R43). -/
theorem test_line_timing_range : (after (.configureLineTiming 0 256) ran).port.reply.code = .range := by decide

theorem test_shared_settings :
    (after (.setSilentLimit 1) ran).port.reply.code = .range ∧ (after (.setGrace 30) ran).settings.graceWindow = 30 ∧
    (after (.setCheckpoint 65) ran).port.reply.code = .range := by decide

/-- Lines A and B: BLANKING is 1, RUNNING is 2 (11.2). -/
theorem test_enable_line : (after (.enableLine 0) (bank none 1)).port.reply.data = 9 := by decide

theorem test_enable_line_6_is_out_of_range : (after (.enableLine 6) ran).port.reply.code = .range := by decide

/-- A trolley shorts line B: position 13's card is settled with its W and released (3.9, 4.8). -/
theorem test_line_fault :
    ((after (.lineFaultEvent 1) (metered 22 2)).ctx 12).state = .lost ∧
    (after (.lineFaultEvent 1) (metered 22 2)).engine.waiting.map (fun e => e.image.map Image.balance) =
      [some 22] ∧
    (after (.lineFaultEvent 1) (metered 22 2)).attention.lineFault = some 2 := by decide

theorem test_disable_line :
    ((after (.disableLine 1) (metered 22 2)).ctx 12).state = .off ∧
    (after (.disableLine 1) (metered 22 2)).port.reply.data = 0 := by decide

/-- The windows of the default settings (3.9): a start at 63.0 ms belongs to slot 5. -/
theorem test_slot_of_a_start :
    [6000, 46000, 63000, 66000, 84000].map Timing.reset.slotAt = [some 0, some 4, some 5, some 6, none] := by decide

/-- The classes of the example of 3.9: in its window; ending after it; naming another position; nothing. -/
theorem test_classes_of_windows :
    let r := report false false false 0 0 0
    [WindowRecord.one { start := 46000, finish := some (47900, r) },
      .one { start := 46000, finish := some (54001, r) }, .one { start := 46000, finish := some (47900, r ^^^ 1) },
      .noStart].map (fun w => (classify Timing.reset 12 4 w).1) = [.valid, .slotFault, .checkFault, .silent] ∧
    (classify Timing.reset 13 4 (.one { start := 46000, finish := some (47900, r) })).1 = .positionFault := by
  decide

/-- The third cycle after enabling leaves BLANKING (R41): its count is 3. -/
theorem test_cycle_start :
    let s := ran.onLine 1 fun c => { c with state := .blanking, phase := .over, count := 2 }
    (((after (.cycleStart 1) s).line 1).state, ((after (.cycleStart 1) s).line 1).count) = (.running, 3) := by
  decide

theorem test_transmission_start_is_noted :
    ((after (.transmissionStart 1 46000) (bank none 1)).line 1).record =
      .one { start := 46000, finish := none } := by decide

theorem test_transmission_end_is_noted :
    ((after (.transmissionEnd 1 47900 0) (after (.transmissionStart 1 46000) (bank none 1))).line 1).record =
      .one { start := 46000, finish := some (47900, 0) } := by decide

/-! ### Positions and calls (10) -/

/-- The first report of a card gives the high half (10, 16:58:42.4). -/
theorem test_position_reads :
    let s := after (.slotWindowClose 1) (reported (report false true true 18 0 0) vacant)
    ((s.ctx 12).state, (s.ctx 12).highHalf) = (.reading, some 18) := by decide

/-- The answer of 16:59:05: 2 + 2 units, W 29, D 4, phase 1, the warn flag clear. -/
theorem test_answer_is_charged :
    let s := after (.slotWindowClose 1) (reported (report true true false 20359 3 0) held)
    ((s.ctx 12).state, (s.ctx 12).working, (s.ctx 12).debited, s.tariff.takings[2]) = (.metered, 29, 4, 4) ∧
    (s.ctx 12).call.map Call.phase = some 1 ∧ (s.ctx 12).order.warn = false := by decide

/-- The expiry of 17:00:05: rate 9 from phase 0, W 24, and a checkpoint settlement of balance 24. -/
theorem test_interval_expiry :
    let s := after (.intervalExpiry 12) (metered 27 6)
    ((s.ctx 12).working, (s.ctx 12).debited, (s.ctx 12).order.warn) = (24, 0, false) ∧
    (s.ctx 12).call.map (fun k => (k.rateUsed, k.phase, k.intervalTimer)) = some (9, 1, some 200) ∧
    s.engine.waiting.map (fun e => e.image.map Image.balance) = [some 24] := by decide

/-- A debit of 0 changes nothing but the phase, also where D has reached the step in force (R86). -/
theorem test_a_free_charge_settles_nothing :
    let s := metered 27 8
    let free := ({ TariffEntry.reset with valid := true, interval := 200 } : TariffEntry).withCheck
    let t := after (.intervalExpiry 12) { s with tariff := s.tariff.putEntry 3 3 free }
    ((t.ctx 12).working, (t.ctx 12).debited, t.engine.waiting) = (27, 8, []) ∧
    (t.ctx 12).call.map Call.phase = some 1 := by decide

/-- A charge of 3 with W 2 enters GRACE for ten seconds. -/
theorem test_interval_expiry_unpaid :
    let s := after (.intervalExpiry 12) (metered 2 6)
    ((s.ctx 12).state, (s.ctx 12).working, (s.ctx 12).order.verdict, (s.ctx 12).order.shown) =
      (.grace, 2, .grace, 3) ∧
    (s.ctx 12).call.map Call.graceTimer = some (some 100) := by decide

theorem test_grace_timer_expiry :
    let s := after (.graceTimerExpiry 12) (inGrace .old)
    ((s.ctx 12).state, (s.ctx 12).order.verdict, (s.ctx 12).working) = (.cut, .cutExhausted, 2) := by decide

/-- Position 13 is HELD with P: state 5, enable mark 4; balance shown, claim balance and W 33 (11.3). -/
theorem test_read_position :
    (after (.readPosition 13) held).port.buffer = [0x5004, 2, 18, 20359, 33, 33, 33, 0, 0, 0] := by decide

theorem test_release_position :
    let s := after (.releasePosition 13) (metered 22 2)
    ((s.ctx 12).state, (s.ctx 12).enabled, s.port.reply.data) = (.off, true, 0) := by decide

theorem test_disable_position : ((after (.disablePosition 13) (metered 22 2)).ctx 12).enabled = false := by decide

theorem test_enable_position_49_is_out_of_range :
    (after (.enablePosition 49) ran).port.reply.code = .range ∧
    (after (.enablePosition 13) (bank none 1)).port.reply.data = 1 := by decide

/-- A rate charge at the rates in use (6.7). -/
theorem test_rate_charges :
    [4, 6, 9, 10, 12].map (fun r => [0, 1, 2, 3].map (rateCharge r)) =
      [[1, 1, 1, 1], [2, 2, 1, 1], [3, 2, 2, 2], [3, 3, 2, 2], [3, 3, 3, 3]] := by decide

/-! ### Attention, power and reset -/

theorem test_read_attention :
    (after .readAttention (after (.lineFaultEvent 1) (bank none 1))).port.reply.data = 0x3F84 := by decide

theorem test_clear_attention :
    (after (.clearAttention 4) (after (.lineFaultEvent 1) (bank none 1))).attention.lineFault = none := by decide

theorem test_read_attention_detail :
    (after .readAttentionDetail (after (.lineFaultEvent 1) (metered 22 2))).port.buffer =
      [0x3F8C, 0, 0, 0, 0, 0, 2, 0x1000, 0, 0, 0, 0, 0, 0] := by decide

/-- In PULSE mode a flag's event gives a pulse, and its end ends ATTN (R174). -/
theorem test_pulses :
    let s := after (.lineFaultEvent 1) (after (.setAttentionMode true 0x7F) (bank none 1))
    s.attn = true ∧ (after .attnPulseEnd s).attn = false := by decide

/-- ADMISSION stops at 65,535, and HOT CARD names the latest sighting (R173). -/
theorem test_admission_and_hot_card :
    (({ ran with attention := { ran.attention with admission := some 65535 } } : State).raiseAdmission).attention.admission =
      some 65535 ∧
    ((ran.raiseHotCard 7 3).raiseHotCard 8 4).attention.hotCard = some (8, 4) := by decide

/-- Position 13's claim is settled with D at 0 or not, and kept (10, 17:02:00.0). -/
theorem test_pwrlow :
    let s := after .pwrlowAsserted (metered 10 6)
    ((s.ctx 12).state, (s.ctx 12).working, (s.ctx 12).debited) = (.metered, 10, 0) ∧
    s.engine.waiting.map (fun e => e.image.map Image.balance) = [some 10] := by decide

/-- A torn VALUE write leaves the other copy live (1.5). -/
theorem test_reset_tears_the_write :
    ((after (.resetnAsserted { granule := .copyB, leftBlank := false })
      (after .entryStart { bank none 1 with
        engine := { ran.engine with waiting := [valueEntry 0] } })).record 640) =
      { recordP with copyB := .damaged } := by decide

theorem test_start_up :
    let s := after .resetnDeasserted State.reset
    (s.port.mode, (s.line 5).state, (s.ctx 47).state, s.engine.reading) =
      (.starting, .blanking, .vacant, some { who := .rebuild, slot := 0, granule := .identity }) := by decide

theorem test_supply_valid :
    (after .supplyValid (after (.powerOn { granule := .identity, leftBlank := false }) ran)).pins.released =
      true := by decide

/-- RESETN low over a failure of the supply keeps the part in reset until it is deasserted (R177). -/
theorem test_resetn_outlasts_the_supply :
    let cut : Cut := { granule := .identity, leftBlank := false }
    let s := after .supplyValid (after (.powerOn cut) (after (.resetnAsserted cut) (after (.powerFailure cut) ran)))
    s.pins.released = false ∧ (after .resetnDeasserted s).port.mode = .starting ∧
    (after .resetnDeasserted s).pins.released = true := by decide

theorem test_soft_reset :
    (after .resetEnter ran).port.mode = .draining ∧
    (after .enterInReset (after .resetEnter ran)).port.mode = .inReset ∧
    (after .resetLeave (after .enterInReset (after .resetEnter ran))).port.mode = .starting := by decide

/-! ### The directory and the store engine -/

/-- The buckets of the example of 2.2. -/
theorem test_buckets : [305419896, 1000, 1024000].map bucket = [590, 1000, 1000] := by decide

/-- A write that verifies moves the note to copy B, generation 22 (10, 16:58:43.2). -/
theorem test_value_write_verifies :
    (after (.valueWriteComplete (.cells ((cardP 13).image.raw 22) false)) (writing 0)).dir.entries.map
      DirEntry.live = [some (.b, 22)] := by decide

/-- The third failed verify makes the record WORN (R140). -/
theorem test_value_write_fails :
    (after (.valueWriteComplete .damaged) (writing 2)).dir.entries.map DirEntry.condition = [.worn] := by decide

/-- The start of an entry targets the copy that is not live, with the next generation. -/
theorem test_entry_start :
    ((after .entryStart { bank none 1 with
      engine := { ran.engine with waiting := [valueEntry 0] } }).engine.flight.map Flight.step) =
      some (.writeValue .b 22) := by decide

/-- Between two reads of the rebuild an entry starts (R28). -/
theorem test_entries_start_during_the_rebuild :
    let s := after (.storeReadComplete .asHeld) (after .resetnDeasserted State.reset)
    (s.engine.reading, s.dir.free) = (none, [0]) ∧
    (after .entryStart { s with engine := { s.engine with
      waiting := [{ work := .eraseSlot, slot := 0, attempts := 0, origin := .host }] } }).engine.flight.isSome =
        true := by decide

/-- A suspended step's granule reads blank once it is erased, and bad while it is programmed (R131). -/
theorem test_a_suspended_target_reads :
    ((({ writing 0 with engine := { (writing 0).engine with flight := some {
        entry := valueEntry 0, step := .writeValue .b 22, progress := .erasing .copyB } } } : State).standAt
      (.erased .copyB)).record 640).copyB = .blank ∧
    ((({ writing 0 with engine := { (writing 0).engine with flight := some {
        entry := valueEntry 0, step := .writeValue .b 22, progress := .erasing .copyB } } } : State).standAt
      .programming).record 640).copyB = .damaged := by decide

/-- A refresh offer is dropped in the drain (R178). -/
theorem test_no_refresh_in_the_drain :
    let s : State := { bank none 1 with
      port := { ran.port with mode := .draining }, engine := { ran.engine with waiting := [valueEntry 0] } }
    s.offerRefresh 640 = s := by decide

/-- The first step of an ISSUE leaves the slot blank and goes on (R141). -/
theorem test_issue_steps :
    (after (.issueStepComplete { identity := .blank, copyA := .blank, copyB := .blank })
      (after .entryStart (after .issue issuing))).engine.flight.map Flight.step = some .issueIdentity := by decide

/-- An erased slot joins the free-slot list, and is an orphan no longer (R142). -/
theorem test_erase_completes :
    let s := after (.eraseComplete { identity := .blank, copyA := .blank, copyB := .blank })
      (after .entryStart (after .retire (host 0 none)))
    (s.dir.free, s.dir.orphans) = ([14, 15, 1100, 640], 0) := by decide

/-- A read of a claim's live copy grants the card (10). -/
theorem test_claim_granted :
    let s := after (.storeReadComplete .asHeld) (after (.slotWindowClose 1)
      (reported (report false true false 20359 0 0) ((bank none 1).withCtx 12
        { Position.reset with state := .reading, highHalf := some 18 })))
    ((s.ctx 12).state, (s.ctx 12).working) = (.held, 33) ∧
    (s.ctx 12).claim.map (fun k => (k.image.useCount, k.image.lastPosition)) = some (13, some 12) := by decide

/-- Slot 5 of the example of 2.5, with both copies blank: DAMAGED, and STORE FAULT from a rebuild read (8.6). -/
theorem test_rebuild_of_an_unreadable_record :
    let p : Identity := { serial := 1000, cls := .standard, faceValue := 50, issueDay := 3 }
    let s := after (.storeReadComplete .asHeld) { starting with
      dir := { starting.dir with rebuild := some { slot := 5, stage := .copyB p none false } }
      engine := { starting.engine with reading := some { who := .rebuild, slot := 5, granule := .copyB } } }
    s.dir.entries.map DirEntry.condition = [.damaged] ∧ s.attention.storeFault = some { slot := 5, cause := none } := by
  decide

/-- Line B's window of slot 5, whose report ran past its close at 64.0 ms: SLOT FAULT, and one silent cycle (3.9). -/
theorem test_a_report_past_the_close :
    let s := after (.slotWindowClose 1) ((bank none 1).withCtx 13 { Position.reset with state := .vacant } |>.onLine 1
      fun c => { c with phase := .window 5, record := .one { start := 63000, finish := none }
                        receiver := some { start := 63000, slot := some 5 } })
    ((s.ctx 13).lastClass, (s.ctx 13).silentCount) = (.slotFault, 1) ∧ (s.line 1).phase = .window 6 ∧
    (s.line 1).record = .noStart := by decide

/-! ### Witnesses: the hypotheses of the obligations can be met -/

theorem orders_ran : ran.ordersCurrent := by unfold State.ordersCurrent; decide
theorem orders_bank : (bank (some 12) 1).ordersCurrent := by unfold State.ordersCurrent; decide
theorem orders_held : held.ordersCurrent := by unfold State.ordersCurrent; decide
theorem orders_metered : (metered 22 2).ordersCurrent := by unfold State.ordersCurrent; decide
theorem orders_spent : (metered 2 6).ordersCurrent := by unfold State.ordersCurrent; decide
theorem legal_ran : ran.tariff.legal := by unfold Tariff.legal; decide

/-- The directory of a part RUNNING with no reads asked for is sound where its slots, serials and claims are. -/
theorem sound_of_running (s : State) (released : s.pins.released = true) (mode : s.port.mode ≠ .inReset)
    (slots : s.placed.Nodup) (serials : (s.dir.entries.map DirEntry.serial).Nodup) (rebuild : s.dir.rebuild = none)
    (requests : s.engine.rebuildRequests = [])
    (served : s.engine.reading = none → s.engine.readList = [] ∧ s.engine.suspended = false)
    (claims : ∀ p, ∀ k ∈ (s.ctx p).claim, ∃ e ∈ s.dir.entries, e.slot = k.slot ∧ e.claimedBy = some p) :
    s.directorySound where
  slots := slots
  serials := serials
  rebuild := by simp [rebuild]
  requests := .inl requests
  served := served
  asleep := by simp [released, mode]
  claims := claims

theorem sound_ran : ran.directorySound := by
  apply sound_of_running <;> decide
theorem sound_held : held.directorySound := by
  apply sound_of_running <;> decide
theorem sound_metered : (metered 22 2).directorySound := by
  apply sound_of_running <;> decide
theorem sound_faulted : (after (.lineFaultEvent 1) (metered 22 2)).directorySound := by
  apply sound_of_running <;> decide
theorem sound_reset : State.reset.directorySound where
  slots := by decide
  serials := by decide
  rebuild := by decide
  requests := .inl rfl
  served := by decide
  asleep := fun _ => ⟨by decide, by decide, by decide, ⟨by decide, by decide, by decide, by decide⟩, by decide⟩
  claims := by decide

theorem witness_StepTakesTheFront : ({ ran with pending := [.clockStep] } : State).pending = .clockStep :: [] := rfl

theorem witness_StepOnEmptyQueue :
    (ran.pending = [] ∧ ran.pins.released = true ∧ ran.ordersCurrent) ∧
    State.reset.pending = [] ∧ State.reset.pins.released = false :=
  ⟨⟨rfl, rfl, orders_ran⟩, rfl, by decide⟩

theorem witness_FramesDecodeToTheirCommands : encodeFrame 0 .readStatus = some 0x0100000D ∧ 31 < 32 := by decide

theorem witness_FramesNotTakenOrRefused_first :
    (frameTaken .badKind = true ∧ unsent.pins.released = true ∧ unsent.port.result ≠ .none ∧
      unsent.port.delivers = false) ∧
    fromPins .clockStep = false ∧ State.reset.pins.released = false := by decide

theorem witness_FramesNotTakenOrRefused_second :
    (frameTaken .issue = true ∧ servedInEveryMode .issue = false ∧ starting.listens ∧
      starting.port.mode ≠ .running) ∧
    needsLatch .issue = true ∧ ran.serves ∧ ran.port.latch = false := by decide

theorem witness_TransfersRepliesAndStatus_first :
    let owned := after .transferStart (after .readStatus ran)
    ran.pins.released = true ∧ ran.port.transfer = none ∧
    (after .transferStart ran).port.transfer = some { owned := false, unsent := false, shifted := none } ∧
    owned.port.transfer = some { owned := true, unsent := false, shifted := some owned.replyWord } := by decide

theorem witness_TransfersRepliesAndStatus_second : ran.listens ∧ ran.port.mode = .running := by decide

/-- A word before the pointer's end, the pointer at the end, and a frame passed over. -/
theorem witness_ReadBufferWalksTheBuffer :
    let s : State := { ran with port := { ran.port with buffer := [7] } }
    (s.port.pointer < s.port.buffer.length ∧ s.listens) ∧
    (ran.port.pointer = ran.port.buffer.length ∧ ran.listens) ∧
    unsent.port.pointer ≤ unsent.port.buffer.length ∧ unsent.pins.released = true ∧
    unsent.port.result ≠ .none ∧ unsent.port.delivers = false := by decide

theorem witness_ParameterFramesStage :
    ran.listens ∧ 3 ≤ (3#20).toNat ∧ (8191#20).toNat < 8192 ∧ 8192 ≤ (8192#20).toNat := by decide

theorem witness_TariffEntriesAndFrames_first : (1#4 ≠ 0 ∧ 15#4 ≠ 0) ∧ 7 < 8 ∧ 12 < 13 ∧ 9 < 10 := by decide

/-- A tariff staged for WRITE TARIFF. -/
def tariffStaged (zone : BitVec 4) (charge : BitVec 14) (interval : BitVec 16) : State :=
  { ran with
    port := { ran.port with staging := { ran.port.staging with
      zone := zone, initialCharge := charge, interval := interval } } }

/-- Staged tariffs at the boundaries of each test of WRITE TARIFF. -/
theorem witness_TariffEntriesAndFrames_second :
    ((tariffStaged 0 0 0).listens ∧ (tariffStaged 0 0 0).port.staging.zone = 0) ∧
    ((tariffStaged 1 256 0).listens ∧ 255 < (tariffStaged 1 256 0).port.staging.initialCharge.toNat) ∧
    (∀ i ∈ [4, 5, 6000, 6001], (tariffStaged 1 255 (BitVec.ofNat 16 i)).listens ∧
      (tariffStaged 1 255 (BitVec.ofNat 16 i)).port.staging.zone ≠ 0 ∧
      (tariffStaged 1 255 (BitVec.ofNat 16 i)).port.staging.initialCharge.toNat ≤ 255 ∧
      (tariffStaged 1 255 (BitVec.ofNat 16 i)).port.staging.interval.toNat = i) ∧ 1#4 ≠ 0 := by decide

/-- A full schedule, without and with the minute. -/
def fullSchedule : State :=
  { ran with tariff := { ran.tariff with
      schedule := [(0, 0), (1, 0), (2, 0), (3, 0), (4, 0), (5, 0), (6, 0), (1438, 1)], band := 0 } }

theorem witness_BandFrames :
    (ran.listens ∧ ran.tariff.legal ∧ 1439 < (1440#11).toNat) ∧
    (ran.tariff.schedule.length < 8 ∧ (1439#11).toNat ≤ 1439) ∧
    fullSchedule.listens ∧ fullSchedule.tariff.legal ∧ fullSchedule.tariff.schedule.length = 8 ∧
    (∀ e ∈ fullSchedule.tariff.schedule, e.1 ≠ (1439#11).toNat) ∧
    ∃ e ∈ fullSchedule.tariff.schedule, e.1 = (1438#11).toNat := by
  unfold Tariff.legal; decide

/-- The schedule of 6.4, with each clause at its boundary. -/
theorem witness_CurrentBandByTheSchedule :
    let day : List (Nat × BitVec 2) := [(420, 3), (1439, 1)]
    day.Pairwise (fun a b => a.1 < b.1) ∧ (∀ e ∈ day, e.1 ≤ 1439) ∧
    ((420, 3) ∈ day ∧ 420 ≤ 25200 / 60 ∧ ∀ d ∈ day, d.1 ≤ 25200 / 60 → d.1 ≤ 420) ∧
    (∀ e ∈ day, 25199 / 60 < e.1) ∧ (1439, 1) ∈ day.getLast? ∧ 86399 / 60 = 1439 ∧ 59 / 60 = 0 ∧
    ∀ d ∈ day, d.1 ≠ 0 := by decide

theorem witness_ClockCommands :
    ran.listens ∧ 86400 ≤ (86400#17).toNat ∧ (86399#17).toNat ≤ 86399 ∧ (tariffAt 86398 0).second < 86399 ∧
    (tariffAt 86399 0).second = 86399 := by decide

theorem witness_TakingsAreCollectedAndNeverFall_first : ran.serves ∧ ran.tariff.legal := ⟨by decide, legal_ran⟩

theorem witness_TakingsAreCollectedAndNeverFall_second :
    ran.tariff.legal ∧ Instr.readStatus ≠ .collectTakings ∧ resets .readStatus = false ∧
    exec .readStatus ran = .next (after .readStatus ran) :=
  ⟨legal_ran, by decide, by decide, rfl⟩

theorem witness_SettingsFrames :
    ran.listens ∧ 6 ≤ (6#3).toNat ∧ (39#17).toNat < 40 ∧ 250 < (251#17).toNat ∧
    (40 ≤ (40#17).toNat ∧ (250#17).toNat ≤ 250) := by decide

theorem witness_LinesAreEnabledAndDisabled_first :
    (held.serves ∧ held.ordersCurrent) ∧ 6 ≤ (6#3).toNat ∧ (held.line 1).driven = true ∧
    (held.line 0).driven = false :=
  ⟨⟨by decide, orders_held⟩, by decide⟩

/-- A line in OFF, a line RUNNING with a call on it, and a line FAULTED with its position LOST. -/
theorem witness_LinesAreEnabledAndDisabled_second :
    let s := metered 22 2
    let faulted := after (.lineFaultEvent 1) (metered 22 2)
    (s.serves ∧ s.ordersCurrent ∧ s.directorySound) ∧ (s.line 0).state = .off ∧
    ((s.line 1).state ≠ .off ∧ (s.line 1).state ≠ .faulted ∧ lineOf 12 = 1 ∧ (s.ctx 12).state ≠ .off ∧
      (s.ctx 12).claim = some (cardP 13)) ∧
    faulted.serves ∧ faulted.ordersCurrent ∧ faulted.directorySound ∧ (faulted.line 1).state = .faulted ∧
    (faulted.ctx 12).state = .lost ∧ (faulted.ctx 13).state ≠ .lost :=
  ⟨⟨by decide, orders_metered, sound_metered⟩, by decide, by decide, by decide,
    by unfold State.ordersCurrent; decide, sound_faulted, by decide⟩

theorem witness_LineFaultLosesPositions :
    let s := metered 22 2
    s.pins.released = true ∧ s.ordersCurrent ∧ s.directorySound ∧ (s.line 0).driven = false ∧
    (s.line 1).driven = true ∧ (s.ctx 12).state ≠ .off ∧ (s.ctx 12).state ≠ .lost ∧
    (s.ctx 12).claim = some (cardP 13) ∧ (s.ctx 13).state = .off :=
  ⟨by decide, orders_metered, sound_metered, by decide⟩

/-- A first cycle begun with its frame, a cycle over, and a line in OFF. -/
theorem witness_CyclesOpenWithAFrame :
    let first := after (.enableLine 0) ran
    let past := ran.onLine 0 fun c => { c with state := .blanking, phase := .over, count := 2 }
    (first.pins.released = true ∧ ∃ f, (first.line 0).phase = .sending f) ∧
    ((past.line 0).driven = true ∧ (past.line 0).phase = .over ∧ (past.line 0).count + 1 = 3) ∧
    (ran.line 0).driven = false :=
  ⟨⟨by decide, _, rfl⟩, by decide⟩

/-- Window 4 open from 44.0 ms to 54.0 ms (3.9). -/
theorem witness_TransmissionsAreReceived :
    let s := bank none 1
    let begun := after (.transmissionStart 1 44000) s
    let early := s.onLine 1 fun c => { c with receiver := some { start := 43999, slot := some 3 } }
    let frame := s.onLine 1 fun c => { c with phase := .sending 0 }
    0 < Timing.reset.pitch ∧ (s.pins.released = true ∧ (s.line 1).driven = true ∧ (s.line 1).phase = .window 4) ∧
    ((s.line 1).receiver = none ∧ (s.line 1).cycle.slotAt 44000 = some 4 ∧
      (s.line 1).cycle.slotAt 43999 ≠ some 4 ∧ (s.line 1).cycle.slotAt 54000 ≠ some 4) ∧
    ((begun.line 1).receiver = some { start := 44000, slot := some 4 } ∧
      (begun.line 1).record = .one { start := 44000, finish := none }) ∧
    (early.line 1).receiver = some { start := 43999, slot := some 3 } ∧ (frame.line 1).phase = .sending 0 := by
  decide

theorem witness_WindowsAreClassified :
    let f : Transmission := { start := 44000, finish := some (54000, 0) }
    100 * (Timing.reset.offset + 4 * Timing.reset.pitch) ≤ f.start ∧
    54000 ≤ 100 * (Timing.reset.offset + (4 + 1) * Timing.reset.pitch) := by decide

/-- The window of a line in BLANKING; one whose transmission goes on past its close, and one at whose close slot 5's
has begun; of a position in OFF; of one VACANT with and without a report. -/
theorem witness_WindowsCloseAndHandOn :
    let blanking := (bank none 1).onLine 1 fun c => { c with state := .blanking }
    let atRest := reported (report true false false 0 0 0) vacant
    (blanking.pins.released = true ∧ blanking.ordersCurrent ∧ (blanking.line 1).phase = .window 4 ∧
      (blanking.line 1).receiver = none ∧ (blanking.line 1).state = .blanking) ∧
    (let late := (bank none 1).onLine 1 fun c => { c with
        receiver := some { start := 53000, slot := some 4 }, record := .one { start := 53000, finish := none } }
      let early := (bank none 1).onLine 1 fun c => { c with receiver := some { start := 54000, slot := some 5 } }
      (late.line 1).phase = .window 4 ∧ (late.line 1).record = .one { start := 53000, finish := none } ∧
      (early.line 1).phase = .window 4 ∧ (early.line 1).receiver.map Reception.slot = some (some 5)) ∧
    ((bank none 1).ordersCurrent ∧ ((bank none 1).line 1).state = .running ∧
      ((bank none 1).ctx (posOf 1 4)).state = .off) ∧
    (vacant.ordersCurrent ∧ (vacant.ctx (posOf 1 4)).state ≠ .off ∧
      (classify (vacant.line 1).cycle (posOf 1 4) 4 (vacant.line 1).record).2 = none ∧
      min 15 ((vacant.ctx (posOf 1 4)).silentCount + 1) < vacant.settings.silentLimit) ∧
    ((held.withCtx 12 { held.ctx 12 with silentCount := 4 }).ordersCurrent ∧ (held.ctx 12).claim = some (cardP 13) ∧
      held.settings.silentLimit ≤ min 15 (4 + 1) ∧
      (classify (held.line 1).cycle (posOf 1 4) 4 (held.line 1).record).2 = none) ∧
    atRest.ordersCurrent ∧ (atRest.ctx (posOf 1 4)).state = .vacant ∧
    (classify (atRest.line 1).cycle (posOf 1 4) 4 (atRest.line 1).record).2 =
      some (report true false false 0 0 0) ∧
    (report true false false 0 0 0).getLsbD 30 = false ∧
    (report true false false 0 0 0).extractLsb' 9 4 = 0 := by
  unfold State.ordersCurrent; decide

/-- Position 13's telephone in a context, with the order that it shows. -/
def telephone (c : Position) : State := (bank none 1).withCtx 12 { c with order := c.currentOrder }

/-- The report `bits` is handed on from position 13's window, under any tariff. -/
theorem hears_of (c : Position) (t : Tariff) (bits : BitVec 38) (orders : (telephone c).ordersCurrent)
    (report : classify Timing.reset 12 4 (.one { start := 46000, finish := some (47900, bits) }) = (.valid, some bits)) :
    (reported bits { telephone c with tariff := t }).hears 1 4 bits :=
  ⟨rfl, rfl, rfl, report, orders⟩

/-- A position that knows P's serial as its candidate, its refused one or its claim, with P's high half. -/
def knowing (state : PosState) (sub : Option SubState) : Position :=
  { Position.reset with
    state := state, highHalf := some 18
    candidate := if state = .checking ∨ state = .waiting ∨ sub = some .checking then some 1200007 else none
    refusedSerial := if state = .refused ∨ sub = some .refused then some 1200007 else none
    claim := if state = .held ∨ state = .metered ∨ state = .cut ∨ sub = some .old then some (cardP 13) else none
    call := if state = .metered then some { callP with zone := 15, intervalTimer := none, lastPulse := some 3 }
      else sub.map fun sub => { callP with
        zone := 15, intervalTimer := none, graceTimer := some 1, amount := 6, lastPulse := some 3, sub := sub }
    order := { verdict := .cutExhausted, warn := false, shown := 0 } }

/-- A report of position 13 in its window. -/
def classOf (bits : BitVec 38) : ReportClass × Option (BitVec 38) :=
  classify Timing.reset 12 4 (.one { start := 46000, finish := some (47900, bits) })

/-- Reports of position 13 on hook with and without P's low half, of another card, and on zone 15 with the pulses 3
and 4: each is handed on. -/
theorem valid_away : classOf (report false false false 0 0 0) = (.valid, some (report false false false 0 0 0)) := by
  decide
theorem valid_low :
    classOf (report false true false 20359 0 0) = (.valid, some (report false true false 20359 0 0)) := by decide
theorem valid_same : classOf (report true true true 18 15 3) = (.valid, some (report true true true 18 15 3)) := by
  decide
theorem valid_more : classOf (report true true true 18 15 4) = (.valid, some (report true true true 18 15 4)) := by
  decide

/-- Reports of a card gone with a zone; of another card on hook; of one pulse more on hook and without the card; and of
an answer on zones 3, 15 and 1. -/
theorem valid_gone :
    classOf (report true false false 0 15 3) = (.valid, some (report true false false 0 15 3)) := by decide
theorem valid_other :
    classOf (report false true false 20360 0 3) = (.valid, some (report false true false 20360 0 3)) := by decide
theorem valid_more_hung_up :
    classOf (report false true true 18 0 4) = (.valid, some (report false true true 18 0 4)) := by decide
theorem valid_more_gone :
    classOf (report true false false 0 15 4) = (.valid, some (report true false false 0 15 4)) := by decide
theorem valid_answer : ∀ zone ∈ [3, 15, 1],
    classOf (report true true false 20359 zone 14) = (.valid, some (report true true false 20359 zone 14)) := by decide

/-- The tariff of 6.7 in a band, with every counter at `counter`. -/
def counting (band : BitVec 2) (counter : Nat) : Tariff :=
  { tariffAt 61200 band with takings := Vector.replicate 16 counter }

/-- P's serial is completed, another one, or none. -/
theorem witness_reports_complete :
    (knowing .held none).completes (report false true false 20359 0 0) = some 1200007 ∧
    (knowing .held none).completes (report true true false 20360 15 3) = some 1200008 ∧
    (knowing .held none).completes (report true true true 18 15 4) = none ∧
    (knowing .held none).completes (report false false false 0 0 0) = none := by decide

/-- Every state without a call meets them, and so does a position LOST, also where the card is gone and the call
answered. -/
theorem witness_ReportsWithoutACall :
    (∀ state ∈ [PosState.vacant, .reading, .checking, .waiting, .held, .refused, .lost],
      (reported (report false false false 0 0 0) { telephone (knowing state none) with tariff := counting 1 0 }).hears 1 4
        (report false false false 0 0 0) ∧
      (reported (report true false false 0 15 3) { telephone (knowing state none) with tariff := counting 1 0 }).hears 1 4
        (report true false false 0 15 3)) ∧
    ((bank none 1).entryInForce 15).isSome = true ∧ (bank none 1).entryInForce 1 = none := by
  have orders : ∀ state ∈ [PosState.vacant, .reading, .checking, .waiting, .held, .refused, .lost],
      (telephone (knowing state none)).ordersCurrent := by unfold State.ordersCurrent; decide
  exact ⟨fun state h => ⟨hears_of _ _ _ (orders state h) valid_away, hears_of _ _ _ (orders state h) valid_gone⟩,
    by decide⟩

/-- METERED on zone 15: the same pulse with the card, hung up with another one, and without it; one more pulse, also
hung up and without the card. It costs 3: W 3 with D 5 and the counter 3 short of its end, W 2, and no entry in force. -/
theorem witness_ReportsInMetered :
    let c (working : Nat) : Position := { knowing .metered none with working := working, debited := 5 }
    (∀ working ∈ [3, 2], ∀ t : Tariff,
      (reported (report true true true 18 15 3) { telephone (c working) with tariff := t }).hears 1 4
        (report true true true 18 15 3) ∧
      (reported (report false true false 20360 0 3) { telephone (c working) with tariff := t }).hears 1 4
        (report false true false 20360 0 3) ∧
      (reported (report true false false 0 15 3) { telephone (c working) with tariff := t }).hears 1 4
        (report true false false 0 15 3) ∧
      (reported (report true true true 18 15 4) { telephone (c working) with tariff := t }).hears 1 4
        (report true true true 18 15 4) ∧
      (reported (report false true true 18 0 4) { telephone (c working) with tariff := t }).hears 1 4
        (report false true true 18 0 4) ∧
      (reported (report true false false 0 15 4) { telephone (c working) with tariff := t }).hears 1 4
        (report true false false 0 15 4)) ∧
    (c 3).call.map Call.lastPulse = some (some 3) ∧
    (({ bank none 1 with tariff := counting 1 4294967292 } : State).entryInForce 15).map (fun e => e.rateFor .standard) =
      some 10 ∧
    ({ bank none 1 with tariff := counting 2 0 } : State).entryInForce 15 = none ∧
    rateCharge 10 0 = 3 ∧ 5 + 3 = (bank none 1).settings.checkpoint ∧ 4294967292 + 3 = 4294967295 ∧
    (bank none 1).settings.graceWindow ≠ 0 := by
  have orders : ∀ working ∈ [3, 2], (telephone { knowing .metered none with
      working := working, debited := 5 }).ordersCurrent := by unfold State.ordersCurrent; decide
  exact ⟨fun W h t => ⟨hears_of _ _ _ (orders W h) valid_same, hears_of _ _ _ (orders W h) valid_other,
    hears_of _ _ _ (orders W h) valid_gone, hears_of _ _ _ (orders W h) valid_more,
    hears_of _ _ _ (orders W h) valid_more_hung_up, hears_of _ _ _ (orders W h) valid_more_gone⟩, by decide⟩

/-- GRACE in every sub-state, CUT with the card held, without it, with a claim outstanding and with a card refused, and
CUT-UNPAID: with the same pulse, with one pulse
more, and with another card's serial at a zone 0. The pulse costs 3, so 252 stays in GRACE and 253 is cut; without an
entry in force it is cut too. -/
theorem witness_ReportsInGraceAndCut :
    (∀ c ∈ [knowing .grace (some .old), knowing .grace (some .absent), knowing .grace (some .reading),
        knowing .grace (some .checking), knowing .grace (some .refused), knowing .cut none,
        { knowing .cut none with claim := none },
        { knowing .cut none with claim := none, outstanding := some { serial := 1200007, abandoned := false } },
        { knowing .cut none with claim := none, refusedSerial := some 1200007, refusedVerdict := .refusedFault },
        { knowing .cut none with claim := none, order := { verdict := .cutUnpaid, warn := false, shown := 0 } }],
      ∀ t : Tariff,
      (reported (report true true true 18 15 3) { telephone c with tariff := t }).hears 1 4
        (report true true true 18 15 3) ∧
      (reported (report true true true 18 15 4) { telephone c with tariff := t }).hears 1 4
        (report true true true 18 15 4) ∧
      (reported (report false true false 20360 0 3) { telephone c with tariff := t }).hears 1 4
        (report false true false 20360 0 3)) ∧
    (knowing .grace (some .old)).call.map (fun q => (q.zone, q.lastPulse)) = some (15, some 3) ∧
    (knowing .grace (some .checking)).outstanding = none ∧
    (knowing .grace (some .reading)).completes (report false true false 20360 0 3) = some 1200008 ∧
    ((bank none 1).entryInForce 15).isSome = true ∧ 252 + rateCharge 10 0 = 255 ∧
    ({ bank none 1 with tariff := counting 2 0 } : State).entryInForce 15 = none := by
  have orders : ∀ c ∈ [knowing .grace (some .old), knowing .grace (some .absent), knowing .grace (some .reading),
        knowing .grace (some .checking), knowing .grace (some .refused), knowing .cut none,
        { knowing .cut none with claim := none },
        { knowing .cut none with claim := none, outstanding := some { serial := 1200007, abandoned := false } },
        { knowing .cut none with claim := none, refusedSerial := some 1200007, refusedVerdict := .refusedFault },
        { knowing .cut none with claim := none, order := { verdict := .cutUnpaid, warn := false, shown := 0 } }],
      (telephone c).ordersCurrent := by unfold State.ordersCurrent; decide
  exact ⟨fun c h t => ⟨hears_of _ _ _ (orders c h) valid_same, hears_of _ _ _ (orders c h) valid_more,
    hears_of _ _ _ (orders c h) valid_other⟩, by decide⟩

theorem witness_PositionsAreEnabledAndRead_first :
    (held.serves ∧ held.ordersCurrent) ∧ ((held.ctx 13).state = .off ∧ (held.line (lineOf 13)).driven = true) ∧
    (held.ctx 12).state ≠ .off ∧ (held.line (lineOf 0)).driven = false ∧ (0#20).toNat = 0 ∧ 48 < (49#20).toNat :=
  ⟨⟨by decide, orders_held⟩, by decide⟩

theorem witness_PositionsGoOff :
    (held.serves ∧ held.ordersCurrent) ∧ (held.ctx 12).state ≠ .off ∧
    (held.ctx 12).claim = some (cardP 13) ∧ (held.ctx 0).state = .off :=
  ⟨⟨by decide, orders_held⟩, by decide⟩

theorem witness_PositionsAreEnabledAndRead_second :
    held.serves ∧ (held.ctx 12).claim = some (cardP 13) ∧ (held.ctx 0).claim = none ∧
    ((inGrace .old).ctx 12).state = .grace ∧ (inGrace .old).serves := by decide

theorem witness_RateChargesTotalTheRate : 1023 ≤ 1023 ∧ (0 : Nat) ≤ 1023 := by decide

/-- Position 13 at its expiry of 17:00:05, and one with W at the charge. -/
theorem witness_IntervalExpiryDebits : ∀ W ∈ [27, 3],
    let s := metered W 6
    s.pins.released = true ∧ s.ordersCurrent ∧ (s.ctx 12).state = .metered ∧ (s.ctx 12).call = some callP ∧
    callP.intervalTimer.isSome = true ∧ callP.zone ≠ 15 ∧ callP.zone ≠ 0 ∧
    (s.ctx 12).claim = some (cardP 13) ∧ s.entryInForce 3 = some (s.tariff.entry 3 3) ∧
    (s.tariff.entry 3 3).rateFor .standard ≠ callP.rateUsed ∧ rateCharge 9 0 ≤ (s.ctx 12).working ∧
    s.tariff.takings[counterIndex .standard 3] ≤ 4294967295 := by
  unfold State.ordersCurrent; decide

/-- W one below the charge; an entry that is barred; a grace that runs out. -/
theorem witness_CallsThatAreNotPaid :
    let s := metered 2 6
    let barred := after (.barZone 3 3) s
    (s.pins.released = true ∧ s.ordersCurrent ∧ (s.ctx 12).state = .metered ∧ (s.ctx 12).call = some callP ∧
      callP.intervalTimer.isSome = true ∧ (s.ctx 12).claim = some (cardP 13)) ∧
    (s.entryInForce 3 = some (s.tariff.entry 3 3) ∧ (cardP 13).cls ≠ .service ∧
      (s.ctx 12).working < rateCharge 9 0) ∧
    (barred.entryInForce 3 = none ∧ barred.ordersCurrent ∧ (barred.ctx 12).call = some callP) ∧
    ((inGrace .old).ctx 12).state = .grace ∧
    ((inGrace .old).ctx 12).call.map (fun k => k.graceTimer.isSome) = some true := by
  unfold State.ordersCurrent; decide

/-- An answer on zone 3, which costs 4: paid from W 4, with D 4 reaching the checkpoint step and the counter its end; not
paid from W 3; and by a SERVICE card of W 0. An answer on zone 15, which costs 3, and one with no entry in force. -/
theorem witness_TheAnswerPaysTheFirstCharge :
    let c (working : Nat) (cls : CardClass) : Position := { knowing .held none with
      working := working, debited := 4, claim := some { cardP 13 with cls := cls } }
    let t : Tariff := counting 1 4294967291
    let s : State := { bank none 1 with tariff := t }
    (∀ d ∈ [c 4 .standard, c 3 .standard, c 0 .service], ∀ zone ∈ [3, 15, 1],
      (reported (report true true false 20359 zone 14) { telephone d with tariff := t }).hears 1 4
        (report true true false 20359 zone 14)) ∧
    ((c 4 .standard).completes (report true true false 20359 3 14) = some 1200007 ∧
      (report true true false 20359 3 14).getLsbD 30 = true) ∧
    (s.entryInForce 3).map (fun e => e.initialCharge.toNat + rateCharge (e.rateFor .standard) 0) = some 4 ∧
    (s.entryInForce 15).map (fun e => e.initialCharge.toNat) = some 3 ∧ s.entryInForce 1 = none ∧
    4 + 4 = s.settings.checkpoint ∧ 4294967291 + 4 = 4294967295 ∧
    ∀ i : Fin 16, s.tariff.takings[i] ≤ 4294967295 := by
  have orders : ∀ d ∈ [(4, CardClass.standard), (3, .standard), (0, .service)], (telephone { knowing .held none with
      working := d.1, debited := 4, claim := some { cardP 13 with cls := d.2 } }).ordersCurrent := by
    unfold State.ordersCurrent; decide
  refine ⟨fun d h zone hz => hears_of _ _ _ ?_ (valid_answer zone hz), by decide⟩
  simp only [List.mem_cons, List.not_mem_nil, or_false] at h
  obtain rfl | rfl | rfl := h
  · exact orders (4, .standard) (by decide)
  · exact orders (3, .standard) (by decide)
  · exact orders (0, .service) (by decide)

theorem witness_AttentionFrames :
    let s := after (.lineFaultEvent 1) (after (.setAttentionMode true 0x7F) (bank none 1))
    ran.serves ∧ (s.pins.released = true ∧ s.attention.mode = .pulse ∧ s.attention.driving = true) ∧
    ran.attention.mode = .level ∧ ran.attention.hotCard = none := by decide

theorem witness_EventsSetFlagsAndGivePulses :
    let s := after (.setAttentionMode true 0x7F) ran
    ran.attention.legal ∧ s.attention.legal ∧ (s.raiseStoreFault 640 none).attention.legal ∧
    State.reset.pins.released = false ∧ (ran.pins.released = true ∧ ran.attention.mode = .level) ∧
    s.pins.released = true ∧ s.attention.mode = .pulse := by
  unfold Attention.legal; decide

theorem witness_LookupsFindTheEntry :
    ((bank none 1).dir.entries.map DirEntry.serial).Nodup ∧ ((bank none 1).dir.entries.map DirEntry.slot).Nodup := by
  decide

/-- ISSUE: a staged serial 0, a serial indexed, every region locked, no free slot, and slot 1,100. -/
theorem witness_IssueTestsAndIssues :
    (armed.armed ∧ armed.port.staging.serial = 0) ∧
    ((host 1 none).armed ∧ (host 1 none).lookup 1200007 = some (entryP none)) ∧
    (issuing.armed ∧ issuing.port.staging.serial ≠ 0 ∧ issuing.port.staging.serial ≠ 4294967295#32 ∧
      issuing.port.staging.value ≠ 0 ∧ issuing.port.staging.value.toNat ≤ 50000 ∧
      issuing.lookup issuing.port.staging.serial = none ∧ issuing.engine.locks ≠ 0xFFFF#16 ∧
      issuing.dir.free = [14, 15] ++ 1100 :: [] ∧ issuing.slotLocked 14 = true ∧ issuing.slotLocked 15 = true ∧
      issuing.slotLocked 1100 = false ∧
      issuing.engine.waiting.length + 1 + issuing.unqueuedClaims + 1 ≤ 96) := by decide

/-- RETIRE and ERASE SLOT of an unclaimed card and of a claimed one; an orphan slot. -/
theorem witness_RetireAndEraseSlotQueueAnErase :
    let orphan := after .retire (host 0 none)
    let s := host 0 none
    let claimed := host 0 (some 12)
    (s.armed ∧ s.lookup s.port.staging.serial = some (entryP none) ∧ s.slotLocked 640 = false ∧
      s.hasEntry 640 = false ∧ s.engine.waiting.length + 1 + s.unqueuedClaims + 1 ≤ 96) ∧
    (claimed.armed ∧ claimed.lookup claimed.port.staging.serial = some (entryP (some 12))) ∧
    (640 ∈ orphan.engine.erasing ∧ (after .enableWrite orphan).armed) ∧
    640 ∉ s.engine.erasing ∧ ((∀ e ∈ s.dir.entries, e.slot ≠ 641) ∧ 641 ∉ s.dir.free) := by decide

/-- The part with P's serial named by a claim in flight of position 14. -/
def pursued (s : State) : State :=
  { s with dir := { s.dir with claims := [{
      serial := 1200007, slot := 640, position := 13, second := false, appeared := false, held := [] }] } }

/-- An unindexed serial, a locked region, a claimed card, an ISSUING record, and no live copy: that one also with a claim
in flight, for BLOCK, and claimed, for UNBLOCK. -/
theorem witness_CardActionRefusals :
    let locked : State := { host 1 none with engine := ran.engine }
    let issuingP : State := { host 1 none with dir := { ran.dir with
      entries := [{ entryP none with condition := .issuing, live := none }] } }
    let without (claimed : Option Pos) : State :=
      { host 1 claimed with dir := { ran.dir with entries := [{ entryP claimed with live := none }] } }
    ((host 0 none).armed ∧ (host 0 none).port.staging.value = 0) ∧
    (issuing.armed ∧ issuing.lookup issuing.port.staging.serial = none) ∧
    (locked.armed ∧ (locked.lookup locked.port.staging.serial).isSome = true ∧ locked.slotLocked 640 = true) ∧
    ((host 1 (some 12)).armed ∧ (host 1 (some 12)).slotLocked 640 = false) ∧
    (issuingP.armed ∧ (issuingP.lookup issuingP.port.staging.serial).map DirEntry.condition = some .issuing) ∧
    ((without none).armed ∧ ((without none).lookup 1200007).map DirEntry.live = some none) ∧
    ((pursued (without none)).armed ∧ ((pursued (without none)).lookup 1200007).map DirEntry.claimedBy = some none) ∧
    (without (some 12)).armed ∧ (without (some 12)).slotLocked 640 = false ∧
    ((without (some 12)).lookup 1200007).map DirEntry.condition = some .good := by decide

/-- P's record with a waiting image: credits to 50,000 and past it, and cards of each state, also with a claim in flight
and claimed. -/
theorem witness_CardActionsBuildOnTheNewestImage : ∀ state ∈ [CardState.fresh, .active, .empty, .blocked],
    ∀ balance ∈ [0, 33],
    let i : Image := { (cardP 13).image with state := state, balance := balance }
    let s : State := { host 49967 none with engine := { (host 0 none).engine with
      waiting := [{ valueEntry 0 with work := .value i }] } }
    s.armed ∧ s.lookup s.port.staging.serial = some (entryP none) ∧ s.slotLocked 640 = false ∧
    (entryP none).claimedBy = none ∧ (∀ c ∈ s.dir.claims, c.serial ≠ (entryP none).serial) ∧
    (entryP none).condition ≠ .issuing ∧ (entryP none).live ≠ none ∧ s.queuedImage 640 = some i ∧
    s.hasWaitingValue 640 = true ∧
    ((pursued s).armed ∧ (pursued s).lookup 1200007 = some (entryP none) ∧ (pursued s).queuedImage 640 = some i) ∧
    let claimed : State := { s with dir := (host 0 (some 12)).dir }
    claimed.armed ∧ claimed.lookup 1200007 = some (entryP (some 12)) ∧ claimed.queuedImage 640 = some i := by decide

/-- BLOCK of P held at position 13, in HELD and in METERED. -/
theorem witness_BlockOfAClaimedCard :
    let on (s : State) : State := { s with
      port := (host 0 none).port, engine := { s.engine with locks := 0 } }
    (((on held).armed ∧ (on held).ordersCurrent ∧
      (on held).lookup (on held).port.staging.serial = some (entryP (some 12)) ∧ (on held).slotLocked 640 = false ∧
      ((on held).ctx 12).claim = some (cardP 13) ∧ ((on held).ctx 12).state = .held)) ∧
    (on (metered 22 2)).armed ∧ (on (metered 22 2)).ordersCurrent ∧
    ((on (metered 22 2)).ctx 12).claim = some (cardP 13) ∧ ((on (metered 22 2)).ctx 12).state = .metered := by
  unfold State.ordersCurrent; decide

theorem witness_ActionsWaitForTheStore :
    let s := host 1 none
    s.armed ∧ s.serves ∧ s.lookup s.port.staging.serial = some (entryP none) ∧ s.slotLocked 640 = false ∧
    (entryP none).claimedBy = none ∧ (∀ c ∈ s.dir.claims, c.serial ≠ (entryP none).serial) ∧
    (entryP none).condition ≠ .issuing ∧ s.queuedImage 640 = none ∧ (entryP none).live = some (.a, 21) ∧
    s.bySlot s.port.staging.slot = some (entryP none) ∧
    ((pursued s).armed ∧ (pursued s).lookup 1200007 = some (entryP none) ∧ (pursued s).queuedImage 640 = none) ∧
    ((host 1 (some 12)).armed ∧ (host 1 (some 12)).lookup 1200007 = some (entryP (some 12)) ∧
      (host 1 (some 12)).queuedImage 640 = none) ∧
    (storeWf (writing 0).store = true ∧ (writing 0).engine.sound ∧
      (writing 0).engine.flight = some { entry := valueEntry 0, step := .writeValue .b 22, progress := .programming } ∧
      (writing 0).engine.suspended = false) := by
  unfold Engine.sound; decide

/-- An unindexed serial; a free, an orphan and an ISSUING slot. -/
theorem witness_QueriesAndTheirWords :
    let asks (x : Slot) : State := { ran with port := { ran.port with staging := { ran.port.staging with slot := x } } }
    let issued := after .issue issuing
    (ran.serves ∧ ran.lookup ran.port.staging.serial = none) ∧
    ((asks 14).serves ∧ (asks 14).bySlot 14 = none ∧ 14 ∈ (asks 14).dir.free) ∧ 16 ∉ (asks 16).dir.free ∧
    issued.serves ∧ (issued.lookup issued.port.staging.serial).map DirEntry.condition = some .issuing ∧
    (issued.issueEntry 1100).isSome = true ∧ (issued.bySlot 1100).isSome = true := by decide

theorem witness_RegionLockFrames : armed.armed ∧ 16 ≤ (16#20).toNat ∧ (15#20).toNat ≤ 15 := by decide

/-- Numbers at their bounds; P's copy A being read with and without a cell in error; and the rebuild between two reads. -/
theorem witness_GranulesReadAndTheLiveCopy :
    (let s := reading .host (bank none 1)
      let rebuild : State := { bank none 1 with dir := { starting.dir with
        rebuild := some { slot := 641, stage := .identity } } }
      s.pins.released = true ∧ storeWf s.store = true ∧
      s.engine.reading = some { who := .host, slot := 640, granule := .copyA } ∧
      (s.record 640).copyA = .cells ((cardP 12).image.raw 21) false ∧ (s.record 640).copyB = .blank ∧
      rebuild.engine.reading = none ∧ rebuild.engine.flight = none ∧
      rebuild.dir.rebuild.map Rebuild.request = some { who := .rebuild, slot := 641, granule := .identity }) ∧
    (cardP 13).image.balance ≤ 50000 ∧ (1 ≤ 50 ∧ 50 ≤ 50000) ∧ (0 - 255 : Gen).toNat ∈ Set.Icc 1 127 ∧
    (255 - 0 : Gen).toNat ∉ Set.Icc 1 127 := by
  refine ⟨by decide, by decide, by decide, ?_, ?_⟩ <;> simp [Set.mem_Icc]

/-- The rebuild at each stage: a blank slot 0, the last slot with a bad identity, and P's slot, also with no copy that
reads, and with every granule corrected. -/
theorem witness_TheRebuildClassifiesSlots :
    let rebuilding (x : Slot) (stage : RebuildStage) (store : List (Slot × Record)) : State := { starting with
      store := store
      dir := { starting.dir with rebuild := some { slot := x, stage := stage } }
      engine := { starting.engine with
        reading := some { who := .rebuild, slot := x, granule := stage.granule } } }
    let p : Identity := { serial := 1200007, cls := .standard, faceValue := 50, issueDay := 3 }
    ({ rebuilding 0 .identity [] with engine := starting.engine } : State).engine.reading = none ∧
    starting.engine.flight = none ∧ storeWf [(640, recordP)] = true ∧ (rebuilding 0 .identity []).pins.released = true ∧
    readIdentity ((rebuilding 0 .identity []).record 0).identity = .blank ∧
    readIdentity ((rebuilding 8191 .identity [(8191, { recordP with identity := .damaged })]).record 8191).identity =
      .bad ∧
    (readIdentity ((rebuilding 640 .identity [(640, recordP)]).record 640).identity = .good p ∧
      (rebuilding 640 .identity [(640, recordP)]).lookup p.serial = none) ∧
    ((readValue ((rebuilding 640 (.copyA p) [(640, recordP)]).record 640).copyA).isCorrected = false ∧
      (readValue ((rebuilding 640 (.copyB p none false) [(640, recordP)]).record 640).copyB).isCorrected = false ∧
      liveOf none (readValue ((rebuilding 640 (.copyB p none false) [(640, recordP)]).record 640).copyB).valid =
        none) ∧
    (let weak : Record := { recordP with
        identity := .cells p.raw true, copyA := .cells ((cardP 12).image.raw 21) true
        copyB := .cells ((cardP 12).image.raw 20) true }
      let s := rebuilding 640 (.copyB p (some ((cardP 12).image, 21)) true) [(640, weak)]
      (readIdentity (s.record 640).identity).isCorrected = true ∧ (readValue (s.record 640).copyA).isCorrected = true ∧
      (readValue (s.record 640).copyB).isCorrected = true ∧
      liveOf (some ((cardP 12).image, 21)) (readValue (s.record 640).copyB).valid = some (.a, (cardP 12).image, 21) ∧
      s.port.mode = .starting ∧ s.engine.waiting = [] ∧ s.port.result = .none ∧
      s.engine.waiting.length + 1 + s.unqueuedClaims + 1 ≤ 96) := by
  decide

/-- The read of P's live copy, for position 13's claim, for that claim abandoned, and for a CREDIT. -/
theorem witness_ReadsCompleteForClaimsAndActions :
    let claiming := after (.slotWindowClose 1) (reported (report false true false 20359 0 0)
      ((bank none 1).withCtx 12 { Position.reset with state := .reading, highHalf := some 18 }))
    let crediting := after .credit (host 200 none)
    let i := (cardP 12).image
    (claiming.pins.released = true ∧ storeWf claiming.store = true ∧ claiming.port.mode = .running ∧
      claiming.lookup 1200007 = some (entryP none) ∧
      readValue ((claiming.record 640).copy .a) = .good (i, 21) ∧ claiming.queuedImage 640 = none ∧
      claiming.hasWaitingValue 640 = false ∧ claiming.engine.readList = [] ∧
      claiming.engine.waiting.length + 1 + claiming.unqueuedClaims + 1 ≤ 96 ∧
      claiming.engine.reading = some { who := .claim 12, slot := 640, granule := .copyA } ∧
      claiming.dir.claims = [{ serial := 1200007, slot := 640, position := 12, second := false, appeared := false
                               held := [] }] ∧
      claiming.pins.pwrlow = false ∧ (claiming.ctx 12).state = .checking ∧
      (claiming.ctx 12).outstanding = some { serial := 1200007, abandoned := false } ∧
      i.state ≠ .blocked ∧ i.expiry = 0 ∧ i.state ≠ .empty ∧ i.balance ≠ 0) ∧
    ((claiming.withCtx 12 { claiming.ctx 12 with
        state := .vacant, outstanding := some { serial := 1200007, abandoned := true }
        order := { verdict := .none, warn := false, shown := 0 } }).ordersCurrent ∧
      claiming.port.result = .none ∧ i.state = .active) ∧
    crediting.lookup 1200007 = some (entryP none) ∧
    crediting.engine.reading = some { who := .host, slot := 640, granule := .copyA } ∧ crediting.dir.claims = [] ∧
    crediting.port.result = .working { kind := .credit, serial := 1200007, slot := 640, stage := .live none
                                       appeared := false } ∧
    i.balance + crediting.port.staging.value.toNat ≤ 50000 := by
  unfold State.ordersCurrent; decide

/-- P's record with its live copy as given, read for position 13's claim; `image` waits in the queue. -/
def claimRead (copyA copyB : Granule RawValue) (second appeared : Bool) (held : List Pos) (image : Option Image) :
    State :=
  { (bank none 1).withCtx 12 { Position.reset with
      state := .checking, candidate := some 1200007, outstanding := some { serial := 1200007, abandoned := false }
      order := { verdict := .wait, warn := false, shown := 0 } } with
    store := [(640, { recordP with copyA := copyA, copyB := copyB })]
    dir := { ran.dir with
      entries := [entryP none]
      claims := [{ serial := 1200007, slot := 640, position := 12, second := second, appeared := appeared
                   held := held }] }
    engine := { ran.engine with
      reading := some { who := .claim 12, slot := 640, granule := if second then .copyB else .copyA }
      waiting := (image.map fun i => { valueEntry 0 with work := .value i }).toList } }

/-- The first copy bad and the other still to read; both bad; the other valid; an entry that has appeared, or come and
gone; a corrected copy; and a claim held behind a granted one and behind a refused one. -/
theorem witness_ClaimReadsFallBackAndFollow :
    let good : Granule RawValue := .cells ((cardP 12).image.raw 21) false
    let weak : Granule RawValue := .cells ((cardP 12).image.raw 21) true
    (∀ s ∈ [claimRead .damaged good false false [] none, claimRead .blank .damaged true false [] none,
        claimRead .blank .damaged true false [] (some (cardP 13).image), claimRead .damaged good true false [13] none,
        claimRead good .blank false true [] none, claimRead good .blank false true [] (some (cardP 13).image),
        claimRead weak .blank false false [] none],
      s.pins.released = true ∧ storeWf s.store = true ∧ (s.claimOf 12).isSome = true ∧
      s.lookup 1200007 = some (entryP none) ∧ s.bySlot 640 = some (entryP none)) ∧
    ((readValue Granule.damaged).valid = none ∧ readValue good = .good ((cardP 12).image, 21) ∧
      readValue weak = .corrected ((cardP 12).image, 21)) ∧
    (let s := claimRead weak .blank false false [] none
     s.hasEntry 640 = false ∧ s.port.mode ≠ .draining ∧ s.port.result = .none ∧
     s.engine.waiting.length + 1 + s.unqueuedClaims + 1 ≤ 96) ∧
    (((bank none 1).claimArrives 1200007 13).2 = none ∧ (ran.claimArrives 1200007 13).2 = some false ∧
      (({ bank none 1 with engine := { ran.engine with waiting := [valueEntry 0] } } : State).claimArrives
        1200007 13).2 = some true) := by decide

/-- P's record read for an action; `claims` are in flight. -/
def hostRead (kind : ActionKind) (stage : ActionStage) (granule : GranuleName) (r : Record) (image : Option Image)
    (claims : List FlightClaim) : State :=
  { host 1 none with
    store := [(640, r)]
    dir := { ran.dir with entries := [entryP none], claims := claims }
    port := { (host 1 none).port with
      result := .working { kind := kind, serial := 1200007, slot := 640, stage := stage, appeared := false } }
    engine := { ran.engine with
      reading := some { who := .host, slot := 640, granule := granule }
      waiting := (image.map fun i => { valueEntry 0 with work := .value i }).toList } }

/-- A query's identity read, good and bad; the first copy bad; both bad, with and without a claim of the card; and the
image read from either copy, ACTIVE and BLOCKED. -/
theorem witness_HostReadsComplete :
    let bad : Record := { identity := .damaged, copyA := .damaged, copyB := .damaged }
    let barred (balance : Nat) (use : BitVec 16) : Record := { recordP with
      copyA := .cells ({ (cardP use).image with state := .blocked, balance := balance }.raw 21) false }
    let claim : FlightClaim :=
      { serial := 1200007, slot := 640, position := 12, second := false, appeared := false, held := [] }
    ∀ s ∈ [hostRead .queryCard .identity .identity recordP none [], hostRead .querySlot .identity .identity bad none [],
        hostRead .queryCard .identity .identity recordP (some (cardP 13).image) [],
        hostRead .block (.live none) .copyA bad none [], hostRead .credit (.other none) .copyB bad none [],
        hostRead .queryCard (.other none) .copyB bad none [], hostRead .setExpiry (.live none) .copyA recordP none [],
        hostRead .setExpiry (.live none) .copyA recordP none [claim],
        hostRead .block (.other none) .copyA recordP none [], hostRead .block (.live none) .copyA (barred 33 1) none [],
        hostRead .unblock (.live none) .copyA recordP none [], hostRead .unblock (.live none) .copyA (barred 0 1) none [],
        hostRead .unblock (.live none) .copyA (barred 33 0) none [],
        hostRead .unblock (.live none) .copyA (barred 33 1) none [],
        hostRead .querySlot (.live none) .copyA recordP none []],
      s.pins.released = true ∧ storeWf s.store = true ∧ s.port.mode = .running ∧
      s.lookup 1200007 = some (entryP none) ∧ (∀ d ∈ s.dir.entries, d.slot = 640 → d = entryP none) ∧
      s.engine.waiting.length + 1 + s.unqueuedClaims + 1 ≤ 96 := by decide

/-- An action whose entry waits, whose entry has come and gone, a CREDIT from either copy to 50,000 and past it, and a
BLOCK that finds P granted to position 13. -/
theorem witness_HostReadsComplete_later :
    let gone (s : State) : State := { s with port := { s.port with
      result := match s.port.result with
        | .working a => .working { a with appeared := true }
        | r => r } }
    let granted (state : PosState) : State := { hostRead .block (.live none) .copyA recordP none [] with
      dir := { ran.dir with entries := [entryP (some 12)] }
      positions := (telephone (knowing state none)).positions }
    let copyB : Record := { recordP with copyA := .damaged, copyB := .cells ((cardP 12).image.raw 20) false }
    let other := hostRead .credit (.other none) .copyB copyB none []
    let both := hostRead .credit (.live none) .copyA recordP (some (cardP 13).image) []
    let past := gone (hostRead .unblock (.live none) .copyA recordP none [])
    (∀ s ∈ [other, both, past],
      s.pins.released = true ∧ storeWf s.store = true ∧ s.port.mode = .running ∧
      s.lookup 1200007 = some (entryP none) ∧ (∀ d ∈ s.dir.entries, d.slot = 640 → d = entryP none)) ∧
    (readValue (other.record 640).copyB = .good ((cardP 12).image, 20) ∧ other.queuedImage 640 = none ∧
      33 + other.port.staging.value.toNat ≤ 50000 ∧ 50000 < 50000 + other.port.staging.value.toNat) ∧
    (both.queuedImage 640 = some (cardP 13).image ∧ both.hasWaitingValue 640 = true) ∧ past.queuedImage 640 = none ∧
    ∀ state ∈ [PosState.held, .metered, .cut],
      (granted state).ordersCurrent ∧ (granted state).lookup 1200007 = some (entryP (some 12)) ∧
      ((granted state).ctx 12).claim = some (cardP 13) ∧ ((granted state).ctx 12).state = state := by
  unfold State.ordersCurrent; decide

/-- P's serial unindexed; its record ISSUING, DAMAGED, WORN, claimed and free, without and with PWRLOW; its image BLOCKED,
expired and on its last day; EMPTY for a STANDARD card and for a SERVICE card; and a queue with room and without. -/
theorem witness_ClaimsAreTestedInOrder :
    let withEntry (e : DirEntry) (entries : Nat) (pwrlow : Bool) : State := { bank none 1 with
      dir := { ran.dir with entries := [e] }, pins := { ran.pins with pwrlow := pwrlow }
      engine := { ran.engine with waiting := List.replicate entries { valueEntry 0 with slot := 641 } } }
    let free := withEntry (entryP none) 94 false
    let i := (cardP 13).image
    ran.lookup 1200007 = none ∧
    (∀ e ∈ [{ entryP none with condition := .issuing, live := none }, { entryP none with condition := .damaged },
        { entryP none with condition := .worn }, entryP (some 12), entryP none, { entryP none with cls := .service }],
      ∀ pwrlow ∈ [false, true], (withEntry e 0 pwrlow).lookup 1200007 = some e ∧
        (withEntry e 0 pwrlow).pins.pwrlow = pwrlow) ∧
    (free.tariff.day = 7 ∧ free.tariff.daySet = true ∧ free.tariff.timeSet = true ∧ (6#16).toNat < (7#16).toNat) ∧
    (i.state ≠ .blocked ∧ i.expiry = 0 ∧ i.state ≠ .empty ∧ i.balance ≠ 0) ∧
    free.hasRoom = true ∧ (withEntry (entryP none) 95 false).hasRoom = false := by decide

/-- A position that may send a claim, one that may not, and one in GRACE; the directory NOT READY, under PWRLOW, and with
P's record ISSUING, DAMAGED, claimed, claimed by a claim in flight, with an image in the queue and without; and positions
whose claim, also abandoned, is answered in CHECKING, GRACE and CUT. Of 6 owed a card of 5 pays nothing, one of 6 all,
which reaches a checkpoint step of 6, and a SERVICE card of 0 all. -/
theorem witness_ClaimsArriveAndAreAnswered :
    let asked (state : PosState) (abandoned : Bool) : State := telephone { Position.reset with
      state := state, outstanding := some { serial := 1200007, abandoned := abandoned }
      call := if state = .grace then some { callP with
        intervalTimer := none, graceTimer := some 1, amount := 6, sub := .checking } else none }
    let indexed (e : DirEntry) (claims : List FlightClaim) (queue : List QueueEntry) : State := { vacant with
      dir := { ran.dir with entries := [e], claims := claims }, engine := { ran.engine with waiting := queue } }
    let ahead : FlightClaim :=
      { serial := 1200007, slot := 640, position := 20, second := false, appeared := false, held := [] }
    let low : State := { vacant with pins := { ran.pins with pwrlow := true } }
    let paying : State := { asked .grace false with
      settings := { Settings.reset with checkpoint := 6 }, tariff := counting 1 4294967289 }
    (∀ s ∈ [vacant, inGrace .old, asked .checking false, asked .grace false, asked .cut false, asked .vacant true,
        indexed (entryP none) [ahead] [], low, paying, { starting with positions := vacant.positions }],
      s.ordersCurrent) ∧
    ((vacant.ctx 12).outstanding = none ∧ (vacant.ctx 12).state ≠ .grace) ∧
    (starting.dir.ready = false ∧ vacant.dir.ready = true ∧ vacant.pins.pwrlow = false ∧ low.pins.pwrlow = true ∧
      vacant.lookup 1 = none) ∧
    (∀ e ∈ [{ entryP none with condition := .issuing, live := none }, { entryP none with condition := .damaged },
        entryP (some 20), entryP none],
      (indexed e [] []).dir.ready = true ∧ (indexed e [] []).pins.pwrlow = false ∧
      (indexed e [] []).lookup 1200007 = some e) ∧
    ((∃ d ∈ (indexed (entryP none) [ahead] []).dir.claims, d.serial = 1200007) ∧
      (indexed (entryP none) [] [valueEntry 0]).queuedImage 640 = some (cardP 13).image ∧
      (indexed (entryP none) [] []).queuedImage 640 = none ∧ (entryP none).live = some (.a, 21)) ∧
    (5 < 6 ∧ CardClass.standard ≠ .service ∧ 6 ≤ (cardP 13).image.balance ∧ paying.settings.checkpoint = 6 ∧
      ∀ i : Fin 16, paying.tariff.takings[i] ≤ 4294967295 ∧ paying.tariff.takings[i] + 6 = 4294967295) := by
  unfold State.ordersCurrent; decide

/-- A VALUE entry, an ISSUE entry and an erase at the head; and an empty queue. -/
theorem witness_EntriesStartFromTheHead :
    let value : State := { bank none 1 with engine := { ran.engine with waiting := [valueEntry 0] } }
    let issue := after .issue issuing
    let erase := after .retire (host 0 none)
    (ran.pins.released = true ∧ storeWf ran.store = true ∧ ran.engine.waiting = []) ∧
    (value.engine.reading = none ∧ value.engine.readList = [] ∧ value.engine.flight = none ∧
      value.engine.waiting = valueEntry 0 :: [] ∧ value.bySlot 640 = some (entryP none) ∧
      storeWf value.store = true) ∧
    issue.engine.waiting.length = 1 ∧ erase.engine.waiting.map QueueEntry.work = [.retire] := by decide

/-- A first and a third failed write, one that verifies, one that verifies corrected with and without an entry of the
record waiting, one that verifies corrected with another generation, and one whose verify a read suspended. -/
theorem witness_ValueWritesVerifyOrFail : ∀ n ∈ [0, 1, 2], ∀ p ∈ [Progress.programming, .verifying recordP],
    let s : State := { writing n with engine := { ran.engine with
      flight := some { entry := valueEntry n, step := .writeValue .b 22, progress := p } } }
    let waits : State := { s with engine := { s.engine with waiting := [valueEntry 0] } }
    s.pins.released = true ∧ storeWf s.store = true ∧ s.engine.reading = none ∧
    (readValue .damaged).isCorrected = false ∧
    (readValue (.cells ((cardP 13).image.raw 22) false)).valid = some ((cardP 13).image, 22) ∧
    readValue (.cells ((cardP 13).image.raw 22) true) = .corrected ((cardP 13).image, 22) ∧
    readValue (.cells ((cardP 13).image.raw 21) true) = .corrected ((cardP 13).image, 21) ∧
    (entryP none).condition ≠ .issuing ∧ s.hasWaitingValue 640 = false ∧
    s.bySlot 640 = some (entryP none) ∧ s.engine.waiting = [] ∧ s.port.mode ≠ .draining ∧
    waits.engine.waiting = [] ++ valueEntry 0 :: [] ∧
    s.engine.waiting.length + 1 + s.unqueuedClaims + 1 ≤ 96 := by decide

/-- Each step of an ISSUE in flight, and an erase; and an identity that verifies corrected. -/
theorem witness_IssueAndEraseStepsComplete :
    let blank : Record := { identity := .blank, copyA := .blank, copyB := .blank }
    let one := after .entryStart (after .issue issuing)
    let two := after (.issueStepComplete blank) one
    let identity : Identity := { serial := 305419896, cls := .standard, faceValue := 500, issueDay := 0 }
    let three := after (.issueStepComplete { blank with identity := .cells identity.raw false }) two
    let erase := after .entryStart (after .retire (host 0 none))
    [one, two, three, erase].map (fun s => (s.engine.flight.map Flight.step, s.engine.reading, storeWf s.store)) =
      [(some .issueErase, none, true), (some .issueIdentity, none, true), (some .issueCopyA, none, true),
        (some .erase, none, true)] ∧
    (readIdentity (.cells identity.raw true)).isCorrected = true ∧
    (readIdentity (.cells identity.raw true)).valid = some identity := by decide

/-- A running write known to be at its beginning, one that a read has suspended while it programs, and one in its
verify; a part with supply and one without. -/
theorem witness_PinResetsTearAndClear :
    let step (p : Progress) (suspended : Bool) : State := { writing 0 with engine := { ran.engine with
      suspended := suspended, flight := some { entry := valueEntry 0, step := .writeValue .b 22, progress := p } } }
    storeWf ran.store = true ∧ ran.engine.flight = none ∧ storeWf (writing 0).store = true ∧
    (∀ w ∈ [(Progress.erasing .copyB, false), (.programming, true), (.verifying recordP, false)],
      (step w.1 w.2).engine.sound) ∧
    (FlightStep.writeValue .b 22).first = .erasing .copyB ∧ ran.pins.supply ≠ .absent ∧
    (after (.powerFailure { granule := .copyA, leftBlank := true }) ran).pins.supply = .absent := by
  unfold Engine.sound; decide

/-- RESETN low with the supply valid and not yet valid, a power-on reset with RESETN high and low, IN RESET, and the
other modes. -/
theorem witness_TheStartUpBegins :
    let cut : Cut := { granule := .copyA, leftBlank := true }
    let inReset := after .enterInReset (after .resetEnter ran)
    let rising := after (.powerOn cut) ran
    let low := after (.resetnAsserted cut) rising
    (State.reset.ordersCurrent ∧ State.reset.directorySound ∧ State.reset.pins.resetn = true ∧
      State.reset.pins.supply = .valid) ∧
    (rising.pins.supply = .rising ∧ rising.pins.resetn = false) ∧
    (low.pins.supply = .rising ∧ low.pins.resetn = true) ∧
    (inReset.listens ∧ inReset.port.mode = .inReset) ∧
    (after .resetEnter ran).port.mode = .draining ∧ ran.listens ∧ ran.port.mode = .running ∧
    ran.pins.supply ≠ .rising ∧ ran.pins.resetn = false :=
  ⟨⟨by unfold State.ordersCurrent; decide, sound_reset, rfl, rfl⟩, by decide⟩

theorem witness_PwrlowSettlesLiveClaims :
    let s := metered 22 2
    s.ordersCurrent ∧ s.directorySound ∧ s.pins.pwrlow = false ∧ (s.ctx 12).claim = some (cardP 13) ∧
    (s.ctx 0).claim = none :=
  ⟨orders_metered, sound_metered, by decide⟩

theorem witness_TheSoftReset :
    let s := metered 22 2
    let drained := after .resetEnter ran
    (s.serves ∧ s.ordersCurrent ∧ s.directorySound ∧ s.positionsServed ∧ (s.line (lineOf 12)).driven = true ∧
      (s.ctx 12).state ≠ .off) ∧
    (((after (.lineFaultEvent 1) s).line (lineOf 12)).state = .faulted ∧
      ((after (.lineFaultEvent 1) s).ctx 12).state = .lost) ∧
    (drained.pins.released = true ∧ drained.port.mode = .draining ∧ drained.engine.waiting = [] ∧
      drained.engine.flight = none ∧ drained.dir.claims = []) ∧ ran.port.mode ≠ .draining :=
  ⟨⟨by decide, orders_metered, sound_metered, by unfold State.positionsServed; decide, by decide⟩, by decide⟩

/-- The laws that every step is asked to keep hold of a bank with a call in progress, which then steps. -/
theorem witness_Steps :
    let s : State := { metered 22 2 with pending := [.intervalExpiry 12] }
    step s = .next (after (.intervalExpiry 12) (metered 22 2)) ∧ storeWf s.store = true ∧ s.linesLegal ∧
    s.settings.legal = true ∧ s.port.bufferLegal = true ∧ s.tariff.legal ∧ s.tariff.bandCurrent ∧
    s.attention.legal ∧ s.engine.sound ∧ s.ordersCurrent ∧ s.positionsSound ∧ s.positionsServed ∧
    s.queueBounded := by
  refine ⟨rfl, by decide, by unfold State.linesLegal; decide, by decide, by decide, by unfold Tariff.legal; decide,
    by unfold Tariff.bandCurrent; decide, by unfold Attention.legal; decide, by unfold Engine.sound; decide,
    by unfold State.ordersCurrent; decide, ?_, by unfold State.positionsServed; decide, ?_⟩
  · unfold State.positionsSound Position.sound Call.sound; decide
  · unfold State.queueBounded State.free; decide

theorem witness_StepsKeepTheDirectory :
    ({ metered 22 2 with pending := [.intervalExpiry 12] } : State).directorySound := by
  apply sound_of_running <;> decide

/-- A VALUE write in flight, torn by a reset. -/
theorem witness_OnlyTheEngineWritesTheArray :
    let cut : Instr := .resetnAsserted { granule := .copyB, leftBlank := false }
    storeWf (writing 0).store = true ∧ exec cut (writing 0) = .next (after cut (writing 0)) ∧
    (∀ change, cut ≠ .storeReadComplete change) ∧
    (writing 0).engine.flight = some { entry := valueEntry 0, step := .writeValue .b 22, progress := .programming } ∧
    (after cut (writing 0)).record 640 ≠ (writing 0).record 640 :=
  ⟨by decide, rfl, (fun _ h => nomatch h), by decide⟩

end Sys2Proof.Tests
end

section
/-!
PROOFS. The rate charges of a call (R84).
-/

namespace Sys2Proof.Machine

/-- Four phases in turn, whichever comes first, are all the phases, and m of them lie below m. -/
theorem extraUnits_fourPhases {m : Nat} (hm : m < 4) (p : Fin 4) :
    (if p.val < m then 1 else 0) + (if (p + 1).val < m then 1 else 0) + (if (p + 2).val < m then 1 else 0) +
      (if (p + 3).val < m then 1 else 0) = m := by
  interval_cases m <;> revert p <;> decide

/-- The quarter-units that r div 4 leaves over are paid within any run of four charges (R84). -/
theorem rateCharge_fourPhases (r : Nat) (p : Fin 4) :
    rateCharge r p + rateCharge r (p + 1) + rateCharge r (p + 2) + rateCharge r (p + 3) = r := by
  have extra := extraUnits_fourPhases (Nat.mod_lt r four_pos) p
  have parts : 4 * (r / 4) + r % 4 = r := Nat.div_add_mod r 4
  unfold rateCharge
  omega

@[simp] theorem rateCharge_zero (p : Fin 4) : rateCharge 0 p = 0 := by
  simp [rateCharge]

/-- Settles O24: the total is the one over any four phases in turn, begun at phase 0. -/
theorem rateChargesTotalTheRate : Obligations.RateChargesTotalTheRate := by
  intro r _
  refine ⟨fun _ => rfl, rateCharge_fourPhases r 0, ?_, by decide⟩
  rintro rfl p
  exact rateCharge_zero p

end Sys2Proof.Machine
end

section
/-!
PROOFS. The current band by the schedule and the time of day (R120).
-/

namespace Sys2Proof.Machine

section Schedule

variable {schedule : List (Nat × BitVec 2)} {m second : Nat} {e d : Nat × BitVec 2}

/-! ### The search for the latest entry -/

/-- An entry that starts later than the minute does not count. -/
theorem latestBand_of_all_later (later : ∀ d ∈ schedule, m < d.1) (found : Option (BitVec 2)) :
    latestBand m schedule found = found := by
  induction schedule with
  | nil => rfl
  | cons x rest ih =>
    obtain ⟨laterHead, laterRest⟩ := List.forall_mem_cons.mp later
    simpa [latestBand, laterHead.not_ge] using ih laterRest

/-- The entries before the latest one are overwritten by it, and those after it start later than the minute. -/
theorem latestBand_of_latest (ascending : schedule.Pairwise (fun a b => a.1 < b.1)) (mem : e ∈ schedule)
    (reached : e.1 ≤ m) (latest : ∀ d ∈ schedule, d.1 ≤ m → d.1 ≤ e.1) (found : Option (BitVec 2)) :
    latestBand m schedule found = some e.2 := by
  induction schedule generalizing found with
  | nil => cases mem
  | cons x rest ih =>
    obtain ⟨afterHead, ascendingRest⟩ := List.pairwise_cons.mp ascending
    obtain ⟨-, latestRest⟩ := List.forall_mem_cons.mp latest
    obtain rfl | memRest := List.mem_cons.mp mem
    · have later : ∀ d ∈ rest, m < d.1 := fun d hd =>
        not_le.mp fun le => (latestRest d hd le).not_gt (afterHead d hd)
      simp [latestBand, reached, latestBand_of_all_later later]
    · exact ih ascendingRest memRest latestRest _

/-! ### The current band -/

/-- The first case of R120. -/
theorem bandAt_of_latest (ascending : schedule.Pairwise (fun a b => a.1 < b.1)) (mem : e ∈ schedule)
    (reached : e.1 ≤ second / 60) (latest : ∀ d ∈ schedule, d.1 ≤ second / 60 → d.1 ≤ e.1) :
    bandAt schedule second = e.2 := by
  simp [bandAt, latestBand_of_latest ascending mem reached latest]

/-- The second case of R120: the schedule wraps from the day before. -/
theorem bandAt_of_all_later (later : ∀ d ∈ schedule, second / 60 < d.1) (last : e ∈ schedule.getLast?) :
    bandAt schedule second = e.2 := by
  simp [bandAt, latestBand_of_all_later later, Option.mem_def.mp last]

/-- The third case of R120. -/
@[simp] theorem bandAt_nil (second : Nat) : bandAt [] second = 0 := rfl

theorem start_le_start_of_mem_getLast? (ascending : schedule.Pairwise (fun a b => a.1 < b.1))
    (last : e ∈ schedule.getLast?) (mem : d ∈ schedule) : d.1 ≤ e.1 := by
  obtain ⟨_, rfl⟩ := List.mem_getLast?_eq_getLast last
  exact (ascending.imp le_of_lt).rel_getLast_of_rel_getLast_getLast mem le_rfl

/-- Once the last entry's minute has come, the last entry is the latest one. -/
theorem bandAt_of_last_reached (ascending : schedule.Pairwise (fun a b => a.1 < b.1))
    (last : e ∈ schedule.getLast?) (reached : e.1 ≤ second / 60) : bandAt schedule second = e.2 :=
  bandAt_of_latest ascending (List.mem_of_getLast? last) reached fun _ mem _ =>
    start_le_start_of_mem_getLast? ascending last mem

/-- One entry is in force all day: from its minute on as the latest, before it as the last of the day before. -/
@[simp] theorem bandAt_singleton (e : Nat × BitVec 2) (second : Nat) : bandAt [e] second = e.2 := by
  obtain reached | later := le_or_gt e.1 (second / 60)
  · exact bandAt_of_last_reached (List.pairwise_singleton _ e) rfl reached
  · exact bandAt_of_all_later (List.forall_mem_singleton.mpr later) rfl

end Schedule

/-- Settles O11: the three cases of R120, and about midnight the last entry, which minute 1,439 has reached and
minute 0 takes from the day before. -/
theorem currentBandByTheSchedule : Obligations.CurrentBandByTheSchedule := by
  intro schedule second ascending inDay _
  refine ⟨fun e => bandAt_of_latest ascending, fun later e => bandAt_of_all_later later, bandAt_nil second,
    fun e => bandAt_singleton e second, fun e last => ⟨fun endOfDay => ?_, fun startOfDay noneAtZero => ?_⟩⟩
  · have reached : e.1 ≤ second / 60 := endOfDay ▸ inDay e (List.mem_of_getLast? last)
    exact bandAt_of_last_reached ascending last reached
  · have later : ∀ d ∈ schedule, second / 60 < d.1 := fun d mem =>
      startOfDay ▸ Nat.pos_of_ne_zero (noneAtZero d mem)
    exact bandAt_of_all_later later last

end Sys2Proof.Machine
end

section
/-!
PROOFS. The walk of READ BUFFER through the readout buffer (R171).
-/

namespace Sys2Proof.Machine

/-- READ BUFFER with the pointer below the count takes the word there (R171). -/
theorem exec_readBuffer_of_lt {s : State} (listens : s.listens) (below : s.port.pointer < s.port.buffer.length) :
    exec .readBuffer s = .next { s with port :=
      { s.port.answered .ok s.port.buffer[s.port.pointer] with pointer := s.port.pointer + 1 } } := by
  have word : s.taken.port.buffer[s.taken.port.pointer]? = some s.port.buffer[s.port.pointer] :=
    List.getElem?_eq_getElem below
  change done (takeFrame _ s) = _
  rw [takeFrame_of_listens listens, word]
  rfl

/-- READ BUFFER with every word read answers the empty marker and leaves the pointer (R171). -/
theorem exec_readBuffer_of_le {s : State} (listens : s.listens) (read : s.port.buffer.length ≤ s.port.pointer) :
    exec .readBuffer s = .next (s.replied .ok 0xFFF0#16) := by
  have noWord : s.taken.port.buffer[s.taken.port.pointer]? = none := List.getElem?_eq_none read
  change done (takeFrame _ s) = _
  rw [takeFrame_of_listens listens, noWord]
  rfl

/-- READ BUFFER while an answer is waited for is passed over (R151). -/
theorem exec_readBuffer_of_waiting {s : State} (released : s.pins.released = true)
    (waiting : s.port.result ≠ .none) (undelivered : s.port.delivers = false) :
    exec .readBuffer s = .next s.passed :=
  congrArg done (takeFrame_of_waiting released waiting undelivered _)

/-- An ignored transfer sets FE, and the transfer is over (R148). -/
theorem exec_transferIgnored_of_released {s : State} (released : s.pins.released = true) :
    exec .transferIgnored s = .next { s with port := { s.port with fe := true, transfer := none } } :=
  congrArg done (unlessReset_of_released released _)

@[simp] theorem State.passed_pointer (s : State) : s.passed.port.pointer = s.port.pointer := rfl

/-- Settles O7: the pointer rises only where a word is there to take, and what is passed over or ignored takes
none. -/
theorem readBufferWalksTheBuffer : Obligations.ReadBufferWalksTheBuffer := by
  intro s _
  refine ⟨fun listens => ⟨exec_readBuffer_of_lt listens, fun atCount => ?_⟩,
    fun released waiting undelivered => ⟨?_, s.passed_pointer⟩,
    fun released => ⟨_, exec_transferIgnored_of_released released, rfl, rfl⟩⟩
  · exact exec_readBuffer_of_le listens atCount.ge
  · exact exec_readBuffer_of_waiting released waiting undelivered

end Sys2Proof.Machine
end

section
/-!
PROOFS. What every command keeps, whatever the state: the waiting commands, the ranges, the law of the write queue,
and the takings but where they are collected or reset. `Keeps` collects the laws that each update keeps by itself, so
that one passage over the commands serves them all.
-/

namespace Sys2Proof.Machine

/-! ### The relation -/

/-- The waiting commands stay, and each law that holds of `s` holds of `t`; the takings do not fall unless
`cleared`. -/
structure Keeps (cleared : Prop) (s t : State) : Prop where
  pending : t.pending = s.pending
  store : storeWf s.store = true → storeWf t.store = true
  lines : s.linesLegal → t.linesLegal
  settings : s.settings.legal = true → t.settings.legal = true
  buffer : s.port.bufferLegal = true → t.port.bufferLegal = true
  tariff : s.tariff.legal → t.tariff.legal
  band : s.tariff.legal → s.tariff.bandCurrent → t.tariff.bandCurrent
  takings : ¬cleared → s.tariff.legal → ∀ i : Fin 16, s.tariff.takings[i] ≤ t.tariff.takings[i]
  attention : s.attention.legal → t.attention.legal
  engine : s.engine.sound → t.engine.sound
  orders : s.ordersCurrent → t.ordersCurrent

namespace Keeps

variable {cleared : Prop} {s t u : State}

theorem refl (s : State) : Keeps cleared s s where
  pending := rfl
  store := id
  lines := id
  settings := id
  buffer := id
  tariff := id
  band := fun _ => id
  takings := fun _ _ _ => le_rfl
  attention := id
  engine := id
  orders := id

theorem trans (h : Keeps cleared s t) (k : Keeps cleared t u) : Keeps cleared s u where
  pending := k.pending.trans h.pending
  store := k.store ∘ h.store
  lines := k.lines ∘ h.lines
  settings := k.settings ∘ h.settings
  buffer := k.buffer ∘ h.buffer
  tariff := k.tariff ∘ h.tariff
  band := fun l b => k.band (h.tariff l) (h.band l b)
  takings := fun n l i => (h.takings n l i).trans (k.takings n (h.tariff l) i)
  attention := k.attention ∘ h.attention
  engine := k.engine ∘ h.engine
  orders := k.orders ∘ h.orders

/-- The operations of claims and calls keep every law (Laws/Calls). -/
theorem calls {P : Pos → Prop} (h : Calls P s t) : Keeps cleared s t where
  pending := h.pending
  store := fun w => (h.store w).1
  lines := fun l m => by rw [State.line, h.lines]; exact l m
  settings := by rw [h.settings]; exact id
  buffer := by rw [h.port]; exact id
  tariff := fun ⟨h1, h2, h3, h4, h5, h6⟩ => by
    rw [h.tariff]; exact ⟨h1, h2, h3, h4, h5, fun i => (h.takings h6 i).2⟩
  band := fun _ b => by rw [h.tariff]; exact b
  takings := fun _ ⟨_, _, _, _, _, h6⟩ i => (h.takings h6 i).1
  attention := h.attention
  engine := h.queue
  orders := h.orders

/-! ### The updates of one component -/

theorem onDir (f : Directory → Directory) (s : State) : Keeps cleared s (s.onDir f) :=
  { refl (cleared := cleared) s with }

theorem onPins (f : Pins → Pins) (s : State) : Keeps cleared s (s.onPins f) :=
  { refl (cleared := cleared) s with }

theorem onPort {f : Port → Port} (s : State)
    (h : s.port.bufferLegal = true → (f s.port).bufferLegal = true) : Keeps cleared s (s.onPort f) :=
  { refl (cleared := cleared) s with buffer := h }

theorem onEngine {f : Engine → Engine} (s : State) (h : s.engine.sound → (f s.engine).sound) :
    Keeps cleared s (s.onEngine f) :=
  { refl (cleared := cleared) s with engine := h }

theorem onSettings {f : Settings → Settings} (s : State)
    (h : s.settings.legal = true → (f s.settings).legal = true) : Keeps cleared s (s.onSettings f) :=
  { refl (cleared := cleared) s with settings := h }

theorem onAttention {f : Attention → Attention} (s : State) (h : s.attention.legal → (f s.attention).legal) :
    Keeps cleared s (s.onAttention f) :=
  { refl (cleared := cleared) s with attention := h }

theorem onTariff {f : Tariff → Tariff} (s : State) (legal : s.tariff.legal → (f s.tariff).legal)
    (band : s.tariff.legal → s.tariff.bandCurrent → (f s.tariff).bandCurrent)
    (takings : ¬cleared → (f s.tariff).takings = s.tariff.takings) : Keeps cleared s (s.onTariff f) :=
  { refl (cleared := cleared) s with
    tariff := legal, band := band
    takings := fun n _ i => (congrArg (fun v => v[i]) (takings n)).ge }

theorem onLine {f : Line → Line} (l : LineIx) (s : State)
    (h : (s.line l).held.legal → (s.line l).cycle.legal →
      (f (s.line l)).held.legal ∧ (f (s.line l)).cycle.legal) : Keeps cleared s (s.onLine l f) :=
  { refl (cleared := cleared) s with
    lines := fun legal m => by
      rw [State.line_onLine]
      split
      · exact h (legal l).1 (legal l).2
      · exact legal m }

theorem onCtx (p : Pos) (f : Position → Position) (s : State) : Keeps cleared s (s.onCtx p f) :=
  { refl (cleared := cleared) s with
    orders := fun h q => by
      rw [State.ctx_onCtx]
      split
      · exact (Position.settled_currentOrder _).symm
      · exact h q }

theorem onRecord (x : Slot) (f : Record → Record) (s : State) : Keeps cleared s (s.onRecord x f) :=
  { refl (cleared := cleared) s with store := State.storeWf_onRecord x f s }

/-! ### The taking of a frame -/

theorem answer (code : ReplyCode) (data : Word) (s : State) : Keeps cleared s (s.answer code data) :=
  onPort s id

theorem answerLatched (code : ReplyCode) (data : Word) (s : State) :
    Keeps cleared s (s.answerLatched code data) :=
  (answer code data s).trans (onPort _ id)

theorem answerAction (kind : ActionKind) (code : ReplyCode) (data : Word) (s : State) :
    Keeps cleared s (s.answerAction kind code data) :=
  (answer code data s).trans (onPort _ id)

theorem load {words : List Word} (h : words.length ≤ 32) (s : State) : Keeps cleared s (s.load words) :=
  onPort s fun _ => by simpa [Port.bufferLegal] using h

theorem endTransfer (addressed : Bool) (s : State) : Keeps cleared s (s.endTransfer addressed) :=
  onPort s id

theorem takeFrame {act : State → State} (h : ∀ s, Keeps cleared s (act s)) (s : State) :
    Keeps cleared s (takeFrame act s) := by
  unfold Machine.takeFrame
  dsimp only
  repeat' split
  · exact refl s
  · exact (endTransfer true s).trans (h _)
  · exact endTransfer true s

theorem whenRunning {act : State → State} (h : ∀ s, Keeps cleared s (act s)) (s : State) :
    Keeps cleared s (whenRunning act s) := by
  unfold Machine.whenRunning
  split
  · exact h s
  · exact answer _ _ s

theorem latched {act : State → State} (h : ∀ s, Keeps cleared s (act s)) (s : State) :
    Keeps cleared s (latched act s) := by
  unfold Machine.latched
  repeat' split
  · exact answerLatched _ _ s
  · exact h s
  · exact answerLatched _ _ s

theorem unlessReset {act : State → State} (h : ∀ s, Keeps cleared s (act s)) (s : State) :
    Keeps cleared s (unlessReset act s) := by
  unfold Machine.unlessReset
  split
  · exact refl s
  · exact h s

theorem forPositions (ps : List Pos) {f : Pos → State → State} (h : ∀ p s, Keeps cleared s (f p s)) (s : State) :
    Keeps cleared s (forPositions ps f s) := by
  induction ps generalizing s with
  | nil => exact refl s
  | cons p ps ih => exact (h p s).trans (ih _)

theorem forLines (ls : List LineIx) {f : State → LineIx → State} (h : ∀ s l, Keeps cleared s (f s l)) (s : State) :
    Keeps cleared s (ls.foldl f s) := by
  induction ls generalizing s with
  | nil => exact refl s
  | cons l ls ih => exact (h s l).trans (ih _)

end Keeps

end Sys2Proof.Machine
end

section
/-!
PROOFS. Every command keeps the ranges (O56), the waiting commands (O3) and, but for a collection or a reset, the
takings (O13): one lemma per operation of a command that is not one of claims and calls.
-/

namespace Sys2Proof.Machine

/-! ### The tariff unit -/

theorem putBand_mem {minute : Nat} {band : BitVec 2} {l : List (Nat × BitVec 2)}
    {e : Nat × BitVec 2} (h : e ∈ putBand minute band l) : e = (minute, band) ∨ e ∈ l := by
  induction l with
  | nil => simpa [putBand] using h
  | cons x rest ih =>
    unfold putBand at h
    repeat' split at h
    · simpa using h
    · exact (List.mem_cons.1 h).imp_right (List.mem_cons_of_mem _)
    · obtain rfl | h := List.mem_cons.1 h
      · exact .inr (List.mem_cons_self ..)
      · exact (ih h).imp_right (List.mem_cons_of_mem _)

/-- The schedule stays ascending (R118). -/
theorem putBand_pairwise (minute : Nat) (band : BitVec 2) {l : List (Nat × BitVec 2)}
    (h : l.Pairwise fun a b => a.1 < b.1) : (putBand minute band l).Pairwise fun a b => a.1 < b.1 := by
  induction l with
  | nil => exact List.pairwise_singleton _ _
  | cons x rest ih =>
    obtain ⟨hx, hr⟩ := List.pairwise_cons.1 h
    unfold putBand
    repeat' split
    · next lt =>
      refine List.pairwise_cons.2 ⟨fun b hb => ?_, h⟩
      obtain rfl | hb := List.mem_cons.1 hb
      · exact lt
      · exact lt.trans (hx b hb)
    · next eq => exact List.pairwise_cons.2 ⟨fun b hb => eq ▸ hx b hb, hr⟩
    · next nlt ne =>
      refine List.pairwise_cons.2 ⟨fun b hb => ?_, ih hr⟩
      obtain rfl | hb := putBand_mem hb
      · exact lt_of_le_of_ne (not_lt.1 nlt) (Ne.symm ne)
      · exact hx b hb

/-- An entry is added only where its minute has none (R118). -/
theorem length_putBand (minute : Nat) (band : BitVec 2) {l : List (Nat × BitVec 2)}
    (h : l.Pairwise fun a b => a.1 < b.1) :
    (putBand minute band l).length = if hasMinute minute l then l.length else l.length + 1 := by
  induction l with
  | nil => rfl
  | cons x rest ih =>
    obtain ⟨hx, hr⟩ := List.pairwise_cons.1 h
    rcases lt_trichotomy minute x.1 with lt | eq | gt
    · have : hasMinute minute (x :: rest) = false := by
        simp only [hasMinute, List.any_eq_false, beq_iff_eq]
        intro e he
        obtain rfl | he := List.mem_cons.1 he
        · exact lt.ne'
        · exact (lt.trans (hx e he)).ne'
      simp [putBand, lt, this]
    · simp [putBand, hasMinute, eq]
    · have : hasMinute minute (x :: rest) = hasMinute minute rest := by
        simp [hasMinute, gt.ne]
      simp only [putBand, gt.not_gt, gt.ne', if_false, List.length_cons, ih hr, this]
      split <;> rfl

theorem Tariff.withBand_bandCurrent (t : Tariff) : t.withBand.bandCurrent := rfl

/-- Minutes that the same entries have reached have the same band (R120). -/
theorem bandAt_congr {l : List (Nat × BitVec 2)} {a b : Nat} (h : ∀ e ∈ l, e.1 ≤ a / 60 ↔ e.1 ≤ b / 60) :
    bandAt l a = bandAt l b := by
  have latest : ∀ (m : List (Nat × BitVec 2)) found, (∀ e ∈ m, e.1 ≤ a / 60 ↔ e.1 ≤ b / 60) →
      latestBand (a / 60) m found = latestBand (b / 60) m found := by
    intro m
    induction m with
    | nil => exact fun _ _ => rfl
    | cons x rest ih =>
      intro found hm
      obtain ⟨hx, hrest⟩ := List.forall_mem_cons.1 hm
      simp only [latestBand, hx]
      exact ih _ hrest
  simp only [bandAt, latest l none h]

/-- The last second of the day and the first have one band where no entry starts at midnight: the last entry's, which
wraps (R120). -/
theorem bandAt_midnight {l : List (Nat × BitVec 2)} (ascending : l.Pairwise fun a b => a.1 < b.1)
    (inDay : ∀ e ∈ l, e.1 ≤ 1439) (nonzero : ∀ e ∈ l, e.1 ≠ 0) : bandAt l 86399 = bandAt l 0 := by
  cases last : l.getLast? with
  | none => rw [List.getLast?_eq_none_iff.1 last]; rfl
  | some e =>
    rw [bandAt_of_last_reached ascending last (inDay e (List.mem_of_getLast? last)),
      bandAt_of_all_later (fun d hd => Nat.pos_of_ne_zero (nonzero d hd)) last]

/-- The clock a second later, before its band is looked at (R122). -/
def Tariff.counted (t : Tariff) : Tariff :=
  if t.second + 1 < 86400 then { t with second := t.second + 1, part := 0 }
  else { t with second := 0, part := 0, day := if t.day = 0xFFFF#16 then t.day else t.day + 1 }

theorem Tariff.clockStep_eq (t : Tariff) : t.clockStep =
    if t.counted.schedule.any (fun e => 60 * e.1 == t.counted.second) then t.counted.withBand else t.counted := rfl

@[simp] theorem Tariff.counted_schedule (t : Tariff) : t.counted.schedule = t.schedule := by
  unfold counted; split <;> rfl
@[simp] theorem Tariff.counted_takings (t : Tariff) : t.counted.takings = t.takings := by
  unfold counted; split <;> rfl
@[simp] theorem Tariff.counted_band (t : Tariff) : t.counted.band = t.band := by
  unfold counted; split <;> rfl
@[simp] theorem Tariff.counted_part (t : Tariff) : t.counted.part = 0 := by
  unfold counted; split <;> rfl
theorem Tariff.counted_second (t : Tariff) :
    t.counted.second = if t.second + 1 < 86400 then t.second + 1 else 0 := by
  unfold counted; split <;> rfl

@[simp] theorem Tariff.clockStep_takings (t : Tariff) : t.clockStep.takings = t.takings := by
  rw [clockStep_eq]; split <;> simp [withBand]

/-- The band is recomputed wherever the second reached starts an entry, so it stays that of the schedule (R121). -/
theorem Tariff.clockStep_bandCurrent {t : Tariff} (legal : t.legal) (band : t.bandCurrent) :
    t.clockStep.bandCurrent := by
  obtain ⟨inDay, -, -, ascending, minutes, -⟩ := legal
  rw [clockStep_eq]
  split
  · exact withBand_bandCurrent _
  · next none =>
    simp only [counted_schedule, List.any_eq_true, beq_iff_eq, not_exists, not_and] at none
    unfold bandCurrent at band ⊢
    rw [counted_band, counted_schedule, band]
    rw [counted_second] at none ⊢
    split
    · next below =>
      rw [if_pos below] at none
      exact bandAt_congr fun e he => by have := none e he; omega
    · next last =>
      rw [if_neg last] at none
      rw [show t.second = 86399 by omega]
      exact bandAt_midnight ascending minutes fun e he => by have := none e he; omega

theorem Tariff.withBand_legal {t : Tariff} (h : t.legal) : t.withBand.legal := h

theorem Tariff.clockStep_legal {t : Tariff} (h : t.legal) : t.clockStep.legal := by
  have counted : t.counted.legal := by
    obtain ⟨-, -, schedule⟩ := h
    refine ⟨?_, by simp, by simpa using schedule⟩
    rw [counted_second]; split <;> omega
  rw [clockStep_eq]
  split
  · exact withBand_legal counted
  · exact counted

end Sys2Proof.Machine
end

section
/-!
PROOFS. Every command keeps the ranges, the waiting commands and, but for a collection or a reset, the takings: one
lemma per operation that is not one of claims and calls, and the passage over the commands.
-/

namespace Sys2Proof.Machine

/-! ### The engine -/

namespace Engine

variable {e : Engine}

/-- Of the engine's law nothing is said of the reads, the mark of a suspension and the locks. -/
theorem sound_of_eq {f : Engine} (h : e.sound) (waiting : f.waiting = e.waiting) (flight : f.flight = e.flight)
    (corrected : f.corrected ≤ 65535) : f.sound := by
  obtain ⟨h1, h2, h3, -⟩ := h
  exact ⟨by rw [waitingValues, waiting]; exact h1, by rw [waiting]; exact h2, by rw [flight]; exact h3, corrected⟩

theorem sound_endFlight (h : e.sound) : { e with flight := none }.sound :=
  ⟨h.1, h.2.1, (fun _ hf => nomatch hf), h.2.2.2⟩

/-- An entry in flight at the beginning of a step of its kind. -/
theorem sound_begin (h : e.sound) {w : QueueEntry} {step : FlightStep} {p : Progress}
    (matched : ({ entry := w, step := step, progress := p } : Flight).matched = true) (attempts : w.attempts ≤ 2)
    (clip : step.clip p = p) : { e with flight := some { entry := w, step := step, progress := p } }.sound := by
  refine ⟨h.1, h.2.1, ?_, h.2.2.2⟩
  rintro _ ⟨⟩
  exact ⟨matched, attempts, clip⟩

theorem sound_sublist (h : e.sound) {ws : List QueueEntry} (sub : ws.Sublist e.waiting) :
    { e with waiting := ws }.sound :=
  ⟨h.1.sublist ((sub.filter _).map _), fun w hw => h.2.1 w (sub.subset hw), h.2.2⟩

end Engine

theorem Keeps.countCorrected {cleared : Prop} (corrected : Bool) (s : State) :
    Keeps cleared s (s.countCorrected corrected) :=
  onEngine s fun h => by
    split
    · exact Engine.sound_of_eq h rfl rfl (Nat.min_le_left _ _)
    · exact h

/-- The kind of entry that each step is of (R137, R141, R142). -/
theorem Flight.matched_iff (f : Flight) : f.matched = true ↔ match f.step with
    | .writeValue _ _ => ∃ i, f.entry.work = .value i
    | .erase => f.entry.work = .retire ∨ f.entry.work = .eraseSlot
    | _ => ∃ i j, f.entry.work = .issue i j := by
  obtain ⟨⟨work, _, _, _⟩, step, _⟩ := f
  cases step <;> cases work <;> simp [matched]

/-! ### The rebuild and the reads -/

namespace Keeps

variable {cleared : Prop}

theorem rebuildAsks (s : State) : Keeps cleared s s.rebuildAsks := by
  unfold State.rebuildAsks
  repeat' split
  · exact refl s
  · exact calls (P := fun _ => True) (Calls.requestRead _ s)
  · exact refl s

theorem rebuildNext (x : Slot) (s : State) : Keeps cleared s (s.rebuildNext x) := by
  unfold State.rebuildNext
  split
  · exact onDir _ s
  · exact (onDir _ s).trans (onPort _ id)

theorem rebuildOrphan (x : Slot) (s : State) : Keeps cleared s (s.rebuildOrphan x) :=
  (onDir _ s).trans (rebuildNext x _)

theorem rebuildIdentity (x : Slot) (o : ReadOutcome Identity) (s : State) :
    Keeps cleared s (s.rebuildIdentity x o) := by
  unfold State.rebuildIdentity
  repeat' split
  · exact rebuildOrphan x s
  · exact onDir _ s
  · exact (onDir _ s).trans (rebuildNext x _)
  · exact rebuildOrphan x s

theorem raiseStoreFault (x : Slot) (cause : Option (EntryKind × Origin)) (s : State) :
    Keeps cleared s (s.raiseStoreFault x cause) :=
  calls (P := fun _ => True) (Calls.raiseStoreFault x cause s)

theorem rebuildIndex (x : Slot) (i : Identity) (a b : Option (Image × Gen)) (corrected : Bool) (s : State) :
    Keeps cleared s (s.rebuildIndex x i a b corrected) := by
  unfold State.rebuildIndex
  dsimp only
  refine Keeps.trans ?_ (rebuildNext x _)
  split
  · split
    · exact (onDir _ s).trans (calls (P := fun _ => True) (Calls.offerValue_getD _ _ _ _))
    · exact onDir _ s
  · exact (onDir _ s).trans (raiseStoreFault _ _ _)

theorem rebuildValue (x : Slot) (o : ReadOutcome (Image × Gen)) (s : State) :
    Keeps cleared s (s.rebuildValue x o) := by
  unfold State.rebuildValue
  split
  · exact onDir _ s
  · exact rebuildIndex _ _ _ _ _ s
  · exact refl s

/-! ### The card actions -/

theorem await (a : HostAction) (g : GranuleName) (s : State) : Keeps cleared s (s.await a g) :=
  ((answer .noReply 1 s).trans (onPort (f := fun p => { p with result := .working a }) _ id)).trans
    (calls (P := fun _ => True) (Calls.requestRead _ _))

theorem applyAction (kind : ActionKind) (x : Slot) (i : Image) (s : State) :
    Keeps cleared s (s.applyAction kind x i) := by
  unfold State.applyAction
  split
  · exact answerAction _ _ _ s
  · split
    · exact answerAction _ _ _ s
    · next h => exact (calls (P := fun _ => True) (Calls.offerValue h)).trans (answerAction _ _ _ _)

theorem blockThrough (p : Pos) (s : State) : Keeps cleared s (s.blockThrough p) :=
  calls (P := fun _ => True) (Calls.blockThrough trivial s)

theorem fromStepSix (kind : ActionKind) (e : DirEntry) (r : ActionRead) (s : State) :
    Keeps cleared s (s.fromStepSix kind e r) := by
  unfold State.fromStepSix
  repeat' split
  all_goals
    first
    | exact answerAction _ _ _ _
    | exact (blockThrough _ _).trans (answerAction _ _ _ _)
    | exact applyAction _ _ _ _
    | exact await _ _ _

theorem onUnlockedCard {act : DirEntry → State → State} (h : ∀ e s, Keeps cleared s (act e s)) (s : State) :
    Keeps cleared s (s.onUnlockedCard act) := by
  unfold State.onUnlockedCard
  repeat' split
  · exact answerLatched _ _ _
  · exact answerLatched _ _ _
  · exact h _ _

theorem finishQuery (kind : ActionKind) (e : DirEntry) (identity : Option Identity) (image : Option Image)
    (s : State) : Keeps cleared s (s.finishQuery kind e identity image) := by
  unfold State.finishQuery
  dsimp only
  split
  · exact (load (by simp [DirEntry.words, serialWords]) s).trans (answerAction _ _ _ _)
  · exact (load (by simp [DirEntry.words, serialWords]) s).trans (answerAction _ _ _ _)

theorem queryValue (kind : ActionKind) (e : DirEntry) (identity : Option Identity) (s : State) :
    Keeps cleared s (s.queryValue kind e identity) := by
  unfold State.queryValue
  split
  · exact finishQuery _ _ _ _ s
  · exact finishQuery _ _ _ _ s
  · exact await _ _ s

theorem startQuery (kind : ActionKind) (e : DirEntry) (s : State) : Keeps cleared s (s.startQuery kind e) := by
  unfold State.startQuery
  split
  · exact finishQuery _ _ _ _ s
  · exact await _ _ s

theorem actionResolved (a : HostAction) (identity : Option Identity) (image : Option Image) (s : State) :
    Keeps cleared s (s.actionResolved a identity image) := by
  unfold State.actionResolved
  repeat' split
  all_goals
    first
    | exact refl s
    | exact queryValue _ _ _ s
    | exact finishQuery _ _ _ _ s
    | exact fromStepSix _ _ _ s

theorem foundUnreadable (x : Slot) (s : State) : Keeps cleared s (s.foundUnreadable x) :=
  calls (P := fun _ => True) (Calls.foundUnreadable x s)

theorem actionIdentity (o : ReadOutcome Identity) (s : State) : Keeps cleared s (s.actionIdentity o) := by
  unfold State.actionIdentity
  split
  · next a _ =>
    have read : Keeps cleared s (if o.valid.isNone then s.foundUnreadable a.slot else s) := by
      split
      · exact foundUnreadable _ s
      · exact refl s
    dsimp only
    split
    · exact read
    · exact read.trans (queryValue _ _ _ _)
  · exact refl s

/-- The note moves and a refresh is offered where the read asks for them (log 14). -/
theorem noteAndRefresh (x : Slot) (c : Copy) (g : Gen) (note refresh : Bool) (s : State) :
    Keeps cleared s (if refresh then (if note then s.noteLive x c g else s).offerRefresh x
      else if note then s.noteLive x c g else s) := by
  have noted : Keeps cleared s (if note then s.noteLive x c g else s) := by
    split
    · exact calls (P := fun _ => True) (Calls.noteLive x c g s)
    · exact refl s
  split
  · exact noted.trans (calls (P := fun _ => True) (Calls.offerRefresh x _))
  · exact noted

theorem actionValue (copy : Copy) (o : ReadOutcome (Image × Gen)) (s : State) :
    Keeps cleared s (s.actionValue copy o) := by
  unfold State.actionValue
  split
  · next a _ =>
    have goes : ∀ (second : Bool) (identity : Option Identity), Keeps cleared s (match o.valid with
        | some (i, g) =>
          let t := if second then s.noteLive a.slot copy g else s
          (if o.isCorrected then t.offerRefresh a.slot else t).actionResolved a identity (some i)
        | none =>
          if second then (s.foundUnreadable a.slot).actionResolved a identity none
          else s.await { a with stage := .other identity } copy.other.granule) := by
      intro second identity
      split
      · exact (noteAndRefresh _ _ _ second o.isCorrected s).trans (actionResolved _ _ _ _)
      · split
        · exact (foundUnreadable _ s).trans (actionResolved _ _ _ _)
        · exact await _ _ s
    dsimp only
    split
    · exact refl s
    · exact goes false _
    · exact goes true _
  · exact refl s

theorem deliverRead (r : ReadRequest) (s : State) : Keeps cleared s (s.deliverRead r) := by
  have value : ∀ c o (t : State), Keeps cleared t (t.valueRead r c o) := by
    intro c o t
    unfold State.valueRead
    split
    · exact rebuildValue _ _ t
    · exact actionValue _ _ t
    · exact calls (Calls.claimRead _ _ _ t)
  have identity : ∀ o (t : State), Keeps cleared t (t.identityRead r o) := by
    intro o t
    unfold State.identityRead
    split
    · exact rebuildIdentity _ _ t
    · exact actionIdentity _ t
    · exact refl t
  unfold State.deliverRead
  dsimp only
  split
  · exact (countCorrected _ s).trans (identity _ _)
  · exact (countCorrected _ s).trans (value _ _ _)
  · exact (countCorrected _ s).trans (value _ _ _)

theorem serveNext (s : State) : Keeps cleared s s.serveNext :=
  onEngine s fun h => by
    split
    · exact Engine.sound_of_eq h rfl rfl h.2.2.2
    · exact Engine.sound_of_eq h rfl rfl h.2.2.2

theorem readComplete (change : CellChange) (s : State) : Keeps cleared s (s.readComplete change) := by
  unfold State.readComplete
  dsimp only
  split
  · exact refl s
  · exact (((rebuildAsks s).trans (onRecord _ _ _)).trans (deliverRead _ _)).trans (serveNext _)

/-! ### The entry in flight -/

theorem endFlight (s : State) : Keeps cleared s s.endFlight := onEngine s Engine.sound_endFlight

/-- An entry begins a step of its kind. -/
theorem begin {w : QueueEntry} {step : FlightStep} {s : State}
    (matched : s.engine.sound → ({ entry := w, step := step, progress := step.first } : Flight).matched = true)
    (attempts : s.engine.sound → w.attempts ≤ 2) : Keeps cleared s (s.begin w step) :=
  (onRecord _ _ s).trans (onEngine _ fun h => Engine.sound_begin h (matched h) (attempts h) step.clip_first)

theorem start {w : QueueEntry} {rest : List QueueEntry} {step : FlightStep} {s : State}
    (head : s.engine.waiting = w :: rest)
    (matched : ({ entry := w, step := step, progress := step.first } : Flight).matched = true) :
    Keeps cleared s (s.start w step) := by
  have dropped : Keeps cleared s (s.onEngine fun g => { g with waiting := g.waiting.drop 1 }) :=
    onEngine s fun h => Engine.sound_sublist h (List.drop_sublist 1 _)
  refine { dropped.trans (onRecord _ _ _) with engine := fun h => ?_ }
  exact Engine.sound_begin (dropped.engine h) matched (h.2.1 w (head ▸ List.mem_cons_self ..)) step.clip_first

theorem entryStart (s : State) : Keeps cleared s s.entryStart := by
  unfold State.entryStart
  split
  · exact refl s
  · split
    · exact refl s
    · next w rest head =>
      split
      · next work =>
        split
        · exact start head (by simp [Flight.matched, work])
        · exact refl s
      · next work => exact start head (by simp [Flight.matched, work])
      · next work => exact start head (by simp [Flight.matched, work])
      · next work => exact start head (by simp [Flight.matched, work])

end Keeps

/-- The step that can complete is the one in flight, with no read in flight. -/
theorem State.stepping_eq_some {s : State} {f : Flight} :
    s.stepping = some f ↔ s.engine.reading = none ∧ s.engine.flight = some f := by
  unfold State.stepping
  cases s.engine.reading <;> simp

namespace Keeps

variable {cleared : Prop}

/-- A failed entry waits again at the head; a VALUE entry does where its record has none waiting (R139). -/
theorem putBack {w : QueueEntry} {s : State} (alone : w.isValue = true → s.hasWaitingValue w.slot = false)
    (attempts : w.attempts < 2) : Keeps cleared s (s.putBack w) :=
  onEngine s fun h => by
    refine Engine.sound_join h (fun hv hm => ?_) (Nat.succ_le_of_lt attempts) _ (List.Perm.refl _)
    rw [← State.hasWaitingValue_iff, alone hv] at hm
    cases hm

theorem moveToHead {x : Slot} {attempts : Nat} (h : attempts ≤ 2) (s : State) :
    Keeps cleared s (s.moveToHead x attempts) :=
  onEngine s fun ⟨values, bounds, rest⟩ => by
    refine ⟨?_, fun w hw => ?_, rest⟩
    · have perm := (List.filter_append_perm (fun w : QueueEntry => w.isValue && w.slot == x) s.engine.waiting)
      have slots := (perm.filter QueueEntry.isValue).map QueueEntry.slot
      refine (List.Perm.nodup_iff ?_).1 values
      refine slots.symm.trans (List.Perm.of_eq ?_)
      simp only [Engine.waitingValues, List.filter_append, List.map_append, List.filter_map, List.map_map]
      rfl
    · obtain hw | hw := List.mem_append.1 hw
      · obtain ⟨v, -, rfl⟩ := List.mem_map.1 hw
        exact h
      · exact bounds w (List.mem_of_mem_filter hw)


theorem onEntry (x : Slot) (f : DirEntry → DirEntry) (s : State) : Keeps cleared s (s.onEntry x f) :=
  onDir _ s

theorem offerRefresh (x : Slot) (s : State) : Keeps cleared s (s.offerRefresh x) :=
  calls (P := fun _ => True) (Calls.offerRefresh x s)

theorem offerRefreshIf (corrected : Bool) (x : Slot) (s : State) :
    Keeps cleared s (if corrected then s.offerRefresh x else s) := by
  split
  · exact offerRefresh x s
  · exact refl s

theorem valueWritten (x : Slot) (c : Copy) (g : Gen) (corrected : Bool) (s : State) :
    Keeps cleared s (s.valueWritten x c g corrected) := by
  have ended : Keeps cleared s (s.noteLive x c g).endFlight := (onEntry _ _ s).trans (endFlight _)
  unfold State.valueWritten
  dsimp only
  split
  · exact ended.trans (offerRefresh x _)
  · exact ended

theorem valueFailed (w : QueueEntry) (s : State) : Keeps cleared s (s.valueFailed w) := by
  unfold State.valueFailed
  dsimp only
  split
  · exact ((endFlight s).trans (onEntry _ _ _)).trans (raiseStoreFault _ _ _)
  · next more =>
    split
    · exact (endFlight s).trans (moveToHead (by unfold Config.lastAttempt at more; omega) _)
    · next none => exact (endFlight s).trans (putBack (fun _ => by simpa using none) (not_le.1 more))

theorem valueWriteComplete (left : Granule RawValue) (s : State) :
    Keeps cleared s (s.valueWriteComplete left) := by
  unfold State.valueWriteComplete
  split
  · next f _ =>
    split
    · dsimp only
      split
      · exact ((onRecord _ _ s).trans (countCorrected _ _)).trans (valueWritten _ _ _ _ _)
      · exact (((onRecord _ _ s).trans (countCorrected _ _)).trans (offerRefreshIf _ _ _)).trans (valueFailed _ _)
    · exact refl s
  · exact refl s

theorem countVerify (r : Record) (s : State) : Keeps cleared s (s.countVerify r) :=
  ((countCorrected _ s).trans (countCorrected _ _)).trans (countCorrected _ _)

theorem issueFailed (w : QueueEntry) (s : State) : Keeps cleared s (s.issueFailed w) :=
  ((endFlight s).trans (onEntry _ _ _)).trans (raiseStoreFault _ _ _)

/-- The entry in flight begins its next step, whose kind is that of the step before. -/
theorem beginNext {f : Flight} {step : FlightStep} {s t : State} (flying : s.engine.flight = some f)
    (kept : Keeps cleared s t) (matched : f.matched = true →
      ({ entry := f.entry, step := step, progress := step.first } : Flight).matched = true) :
    Keeps cleared s (t.begin f.entry step) :=
  { kept.trans (onRecord _ _ t) with
    engine := fun h => by
      obtain ⟨kind, attempts, -⟩ := h.2.2.1 f flying
      exact Engine.sound_begin (kept.engine h) (matched kind) attempts step.clip_first }

theorem issueStepComplete (left : Record) (s : State) : Keeps cleared s (s.issueStepComplete left) := by
  unfold State.issueStepComplete
  split
  · next f stepping =>
    obtain ⟨-, flying⟩ := State.stepping_eq_some.1 stepping
    dsimp only
    split
    · next erases =>
      have read : Keeps cleared s ((s.onRecord f.entry.slot fun _ => s.found f left).countVerify (s.found f left)) :=
        (onRecord _ _ s).trans (countVerify _ _)
      split
      · refine beginNext flying read fun h => ?_
        rw [Flight.matched_iff, erases] at h
        obtain ⟨_, _, work⟩ := h
        simp [Flight.matched, work]
      · exact read.trans (issueFailed _ _)
    · next issues =>
      have read := (onRecord (cleared := cleared) f.entry.slot (fun x => x.take .identity (s.found f left)) s).trans
        (countCorrected (readIdentity (s.found f left).identity).isCorrected _)
      split
      · exact beginNext flying read fun _ => by simp [Flight.matched, issues]
      · exact read.trans (issueFailed _ _)
    · have read := (onRecord (cleared := cleared) f.entry.slot (fun x => x.take .copyA (s.found f left)) s).trans
        (countCorrected (readValue (s.found f left).copyA).isCorrected _)
      split
      · exact (read.trans (endFlight _)).trans (onEntry _ _ _)
      · exact read.trans (issueFailed _ _)
    · exact refl s
  · exact refl s

theorem eraseComplete (left : Record) (s : State) : Keeps cleared s (s.eraseComplete left) := by
  unfold State.eraseComplete
  split
  · next f stepping =>
    obtain ⟨-, flying⟩ := State.stepping_eq_some.1 stepping
    dsimp only
    split
    · next erases =>
      have read := ((onRecord (cleared := cleared) f.entry.slot (fun _ => s.found f left) s).trans
        (countVerify (s.found f left) _)).trans (endFlight _)
      repeat' split
      · exact read.trans (onDir _ _)
      · exact read.trans (raiseStoreFault _ _ _)
      · next more =>
        refine { read with engine := fun h => ?_ }
        have kind : f.entry.isValue = false := by
          obtain ⟨kind, -⟩ := h.2.2.1 f flying
          rw [Flight.matched_iff, erases] at kind
          obtain work | work := kind <;> simp [QueueEntry.isValue, work]
        exact (read.trans (putBack (fun v => absurd v (by simp [kind])) (not_le.1 more))).engine h
    · exact refl s
  · exact refl s

end Keeps

end Sys2Proof.Machine
end

section
/-!
PROOFS. Every command keeps the ranges, the waiting commands and the order of every position (O3, O56): the lines, the
port, the tariff frames, the resets, and the passage over the commands.
-/

namespace Sys2Proof.Machine

/-! ### The lines -/

theorem Timing.fits_iff (t : Timing) : t.fits = true ↔ t.offset + 8 * t.pitch ≤ 10 * t.period := decide_eq_true_iff

theorem Timing.legal_iff (t : Timing) : t.legal = true ↔ 40 ≤ t.period ∧ t.period ≤ 250 ∧ t.offset ≤ 1000 ∧
    25 ≤ t.pitch ∧ t.pitch ≤ 255 ∧ t.offset + 8 * t.pitch ≤ 10 * t.period := decide_eq_true_iff

theorem Port.bufferLegal_iff (p : Port) :
    p.bufferLegal = true ↔ p.buffer.length ≤ 32 ∧ p.pointer ≤ p.buffer.length := decide_eq_true_iff

@[simp] theorem Line.closed_held (k : Fin 8) (l : Line) : (l.closed k).held = l.held := by
  unfold Line.closed; split <;> rfl

@[simp] theorem Line.frameEnd_held (l : Line) : l.frameEnd.held = l.held := by
  unfold Line.frameEnd; split <;> rfl
@[simp] theorem Line.frameEnd_cycle (l : Line) : l.frameEnd.cycle = l.cycle := by
  unfold Line.frameEnd; split <;> rfl
@[simp] theorem Line.frameEnd_state (l : Line) : l.frameEnd.state = l.state := by
  unfold Line.frameEnd; split <;> rfl

@[simp] theorem Line.transmissionStart_held (time : Nat) (l : Line) : (l.transmissionStart time).held = l.held := by
  unfold Line.transmissionStart; split <;> rfl
@[simp] theorem Line.transmissionStart_cycle (time : Nat) (l : Line) :
    (l.transmissionStart time).cycle = l.cycle := by
  unfold Line.transmissionStart; split <;> rfl
@[simp] theorem Line.transmissionStart_state (time : Nat) (l : Line) :
    (l.transmissionStart time).state = l.state := by
  unfold Line.transmissionStart; split <;> rfl

@[simp] theorem Line.transmissionEnd_held (time : Nat) (bits : BitVec 38) (l : Line) :
    (l.transmissionEnd time bits).held = l.held := by
  unfold Line.transmissionEnd; split <;> rfl
@[simp] theorem Line.transmissionEnd_cycle (time : Nat) (bits : BitVec 38) (l : Line) :
    (l.transmissionEnd time bits).cycle = l.cycle := by
  unfold Line.transmissionEnd; split <;> rfl
@[simp] theorem Line.transmissionEnd_state (time : Nat) (bits : BitVec 38) (l : Line) :
    (l.transmissionEnd time bits).state = l.state := by
  unfold Line.transmissionEnd; split <;> rfl

namespace Keeps

variable {cleared : Prop}

/-- An update of a line that leaves its settings. -/
theorem onLine_settings {f : Line → Line} (l : LineIx) (s : State) (held : (f (s.line l)).held = (s.line l).held)
    (cycle : (f (s.line l)).cycle = (s.line l).cycle) : Keeps cleared s (s.onLine l f) :=
  onLine l s fun h c => by rw [held, cycle]; exact ⟨h, c⟩

theorem openCycle (l : LineIx) (count : BitVec 4) (state : LineState) (s : State) :
    Keeps cleared s (s.openCycle l count state) :=
  onLine l s fun h _ => ⟨h, h⟩

theorem preparePosition (p : Pos) (s : State) : Keeps cleared s (s.preparePosition p) := by
  unfold State.preparePosition
  dsimp only
  split
  · exact (onCtx p _ s).trans (onCtx p _ _)
  · exact onCtx p _ s

theorem enableLine (l : LineIx) (s : State) : Keeps cleared s (s.enableLine l) := by
  unfold State.enableLine
  split
  · exact refl s
  · exact (forPositions _ preparePosition s).trans (openCycle l _ _ _)

theorem enterOff (p : Pos) (s : State) : Keeps cleared s (s.enterOff p) :=
  calls (P := fun _ => True) (Calls.enterOff trivial s)

theorem lostToOff (p : Pos) (s : State) : Keeps cleared s (s.lostToOff p) := by
  unfold State.lostToOff
  split
  · exact enterOff p s
  · exact refl s

theorem disableLine (l : LineIx) (s : State) : Keeps cleared s (s.disableLine l) := by
  unfold State.disableLine
  split
  · exact refl s
  · exact (onLine_settings l s rfl rfl).trans (forPositions _ lostToOff _)
  · exact (onLine_settings l s rfl rfl).trans (forPositions _ enterOff _)
  · exact (onLine_settings l s rfl rfl).trans (forPositions _ enterOff _)

theorem lineFault (l : LineIx) (s : State) : Keeps cleared s (s.lineFault l) := by
  unfold State.lineFault
  split
  · have lost : ∀ p (t : State), Keeps cleared t (t.enterLost p) := fun p t =>
      calls (P := fun _ => True) (Calls.enterLost trivial t)
    exact ((onLine_settings l s rfl rfl).trans (forPositions _ lost _)).trans
      (calls (P := fun _ => True) (Calls.raiseLineFault l _))
  · exact refl s

theorem cycleStart (l : LineIx) (s : State) : Keeps cleared s (s.cycleStart l) := by
  unfold State.cycleStart
  dsimp only
  split
  · exact openCycle l _ _ s
  · exact refl s

theorem handOn (p : Pos) (c : ReportClass × Option (BitVec 38)) (s : State) : Keeps cleared s (s.handOn p c) := by
  unfold State.handOn
  dsimp only
  split
  · exact (onCtx p _ s).trans (calls (P := fun _ => True) (Calls.validReport trivial _ _))
  · exact (onCtx p _ s).trans (calls (P := fun _ => True) (Calls.silentCycle trivial _))

theorem windowClose (l : LineIx) (s : State) : Keeps cleared s (s.windowClose l) := by
  unfold State.windowClose
  dsimp only
  split
  · next k _ =>
    split
    · refine Keeps.trans ?_ (onLine_settings l _ (by rw [Line.afterClose_eq_closed, Line.closed_held])
        (by rw [Line.afterClose_eq_closed, Line.closed_cycle]))
      split
      · exact handOn _ _ s
      · exact refl s
    · exact refl s
  · exact refl s

/-- The answer of a frame that names a line. -/
theorem onLineOperand (line : BitVec 3) {act : LineIx → State → State} (h : ∀ l s, Keeps cleared s (act l s))
    (s : State) : Keeps cleared s (match lineOperand line with
      | none => s.answer .range 0
      | some l => act l s) := by
  split
  · exact answer _ _ s
  · exact h _ s

theorem configureLinePeriod (l : LineIx) (period : BitVec 17) (s : State) : Keeps cleared s
    (let taken := clamp 40 250 period.toNat
      let t := (s.line l).held.withPeriod taken
      if t.fits then (s.onLine l (Line.hold t)).answer .ok (toWord taken) else s.answer .range 0) := by
  dsimp only
  split
  · next fits =>
    refine (onLine l s fun h c => ⟨?_, c⟩).trans (answer _ _ _)
    have bounds : 40 ≤ clamp 40 250 period.toNat ∧ clamp 40 250 period.toNat ≤ 250 := by
      unfold clamp; split <;> [skip; split] <;> omega
    rw [Timing.fits_iff] at fits
    rw [Timing.legal_iff] at h ⊢
    simp only [Timing.withPeriod, Line.hold] at fits ⊢
    omega
  · exact answer _ _ s

theorem configureLineTiming (l : LineIx) (pitch : BitVec 9) (s : State) : Keeps cleared s
    (let offset := s.port.staging.value.toNat
      let t := (s.line l).held.withWindows offset pitch.toNat
      if 1000 < offset ∨ pitch.toNat < 25 ∨ 255 < pitch.toNat ∨ t.fits = false then s.answer .range 0
      else (s.onLine l (Line.hold t)).answer .ok 0) := by
  dsimp only
  split
  · exact answer _ _ s
  · next fits =>
    refine (onLine l s fun h c => ⟨?_, c⟩).trans (answer _ _ _)
    simp only [not_or, Bool.not_eq_false, Timing.fits_iff] at fits
    rw [Timing.legal_iff] at h ⊢
    simp only [Timing.withWindows, Line.hold] at fits ⊢
    omega

/-! ### The positions -/

theorem enablePosition (p : Pos) (s : State) : Keeps cleared s (s.enablePosition p) := by
  unfold State.enablePosition
  dsimp only
  split
  · exact (onCtx p _ s).trans (onCtx p _ _)
  · exact onCtx p _ s

theorem disablePosition (p : Pos) (s : State) : Keeps cleared s (s.disablePosition p) :=
  (onCtx p _ s).trans (enterOff p _)

theorem onPositionOperand (op : BitVec 20) {act : Pos → State → State} (h : ∀ p s, Keeps cleared s (act p s))
    (s : State) : Keeps cleared s (match positionOperand op with
      | none => s.answer .range 0
      | some p => act p s) := by
  split
  · exact answer _ _ s
  · exact h _ s

/-! ### The settings -/

/-- A setting that its operand's range admits. -/
theorem onRange (lo hi : Nat) (op : BitVec 20) {f : Nat → Settings → Settings}
    (h : ∀ n g, lo ≤ n → n ≤ hi → g.legal = true → (f n g).legal = true) (s : State) :
    Keeps cleared s (match inRange lo hi op with
      | none => s.answer .range 0
      | some n => (s.onSettings (f n)).answer .ok (toWord n)) := by
  split
  · exact answer _ _ s
  · next n found =>
    unfold inRange at found
    split at found
    · next bounds =>
      cases found
      exact (onSettings s (h _ _ bounds.1 bounds.2)).trans (answer _ _ _)
    · cases found

/-! ### The tariff unit -/

/-- A change of the tariff unit that recomputes the band (R121). -/
theorem onTariff_withBand {f : Tariff → Tariff} (s : State) (legal : s.tariff.legal → (f s.tariff).legal)
    (takings : (f s.tariff).takings = s.tariff.takings) :
    Keeps cleared s (s.onTariff fun t => (f t).withBand) :=
  onTariff s legal (fun _ _ => Tariff.withBand_bandCurrent _) fun _ => takings

theorem writeTariff (s : State) : Keeps cleared s
    (let g := s.port.staging
    if g.zone = 0 then s.answer .range 0
    else if 255 < g.initialCharge.toNat then s.answer .range 0
    else
      let taken := clamp 5 6000 g.interval.toNat
      let e : TariffEntry :=
        { valid := true, initialCharge := g.initialCharge.setWidth 8, interval := BitVec.ofNat 13 taken,
          standardRate := g.standardRate, concessionRate := g.concessionRate, check := false }
      (s.onTariff fun t => t.putEntry g.zone g.band e.withCheck).answer .ok (toWord taken)) := by
  dsimp only
  repeat' split
  · exact answer _ _ s
  · exact answer _ _ s
  · exact (onTariff s id (fun _ => id) fun _ => rfl).trans (answer _ _ _)

theorem writeBand (minute : BitVec 11) (band : BitVec 2) (s : State) : Keeps cleared s
    (let sched := s.tariff.schedule
    if 1439 < minute.toNat then s.answer .range 0
    else if hasMinute minute.toNat sched = false ∧ Config.schedulePlaces ≤ sched.length then
      s.answer .full 0
    else
      let t := s.onTariff fun t =>
        { t with schedule := putBand minute.toNat band t.schedule }.withBand
      t.answer .ok t.tariff.bandWord) := by
  dsimp only
  repeat' split
  · exact answer _ _ s
  · exact answer _ _ s
  · next inDay room =>
    refine (onTariff_withBand s (fun h => ?_) rfl).trans (answer _ _ _)
    obtain ⟨second, part, places, ascending, minutes, takings⟩ := h
    refine ⟨second, part, ?_, putBand_pairwise _ _ ascending, fun e he => ?_, takings⟩
    · have := length_putBand minute.toNat band ascending
      by_cases old : hasMinute minute.toNat s.tariff.schedule = true
      · simp only [this, old, if_true]; exact places
      · simp only [this, old]
        exact Nat.succ_le_of_lt (not_le.1 fun full => room ⟨by simpa using old, full⟩)
    · obtain rfl | he := putBand_mem he
      · exact not_lt.1 inDay
      · exact minutes e he

theorem clearBand (minute : BitVec 11) (s : State) : Keeps cleared s
    (if 1439 < minute.toNat then s.answer .range 0
    else
      let t := s.onTariff fun t =>
        { t with schedule := t.schedule.filter fun e => e.1 != minute.toNat }.withBand
      t.answer .ok t.tariff.bandWord) := by
  dsimp only
  split
  · exact answer _ _ s
  · refine (onTariff_withBand s (fun h => ?_) rfl).trans (answer _ _ _)
    obtain ⟨second, part, places, ascending, minutes, takings⟩ := h
    exact ⟨second, part, (List.length_filter_le _ _).trans places, ascending.filter _,
      fun e he => minutes e (List.mem_of_mem_filter he), takings⟩

theorem setTime (second : BitVec 17) (s : State) : Keeps cleared s
    (if 86399 < second.toNat then s.answer .range 0
    else
      let t := s.onTariff fun t =>
        { t with second := second.toNat, part := 0, timeSet := true }.withBand
      t.answer .ok ((BitVec.ofBool t.tariff.unset).setWidth 16)) := by
  dsimp only
  split
  · exact answer _ _ s
  · next inDay =>
    refine (onTariff_withBand s (fun h => ?_) rfl).trans (answer _ _ _)
    obtain ⟨-, -, rest⟩ := h
    exact ⟨by show second.toNat < 86400; omega, Nat.zero_le _, rest⟩

theorem length_takingsWords (t : Tariff) : t.takingsWords.length = 32 := by
  have : ∀ l : List Nat, (l.flatMap fun n => serialWords (BitVec.ofNat 32 n)).length = 2 * l.length := by
    intro l
    induction l with
    | nil => rfl
    | cons x l ih => rw [List.flatMap_cons, List.length_append, ih, List.length_cons]; simp only [serialWords, List.length_cons, List.length_nil]; omega
  simp [Tariff.takingsWords, this]

/-- A collection sets the counters to 0 (R127). -/
theorem collectTakings (h : cleared) (s : State) : Keeps cleared s
    (((s.load s.tariff.takingsWords).onTariff fun t => { t with takings := Vector.replicate 16 0 }).answer
      .ok (toWord ((s.tariff.takings.toList.filter (· == Config.maxTakings)).length))) := by
  refine ((load (length_takingsWords s.tariff).le s).trans ?_).trans (answer _ _ _)
  refine onTariff _ (fun l => ?_) (fun _ => id) fun n => absurd h n
  obtain ⟨second, part, places, ascending, minutes, -⟩ := l
  exact ⟨second, part, places, ascending, minutes, fun i => by simp⟩

/-! ### The resets -/

theorem clearVolatile (h : cleared) (s : State) : Keeps cleared s s.clearVolatile where
  pending := rfl
  store := id
  lines := fun _ l => by
    have : s.clearVolatile.line l = Line.reset := by simp [State.line, State.clearVolatile, State.reset]
    rw [this]; decide
  settings := fun _ => show Settings.reset.legal = true by decide
  buffer := fun _ => show Port.reset.bufferLegal = true by decide
  tariff := fun _ => by
    refine ⟨Nat.zero_lt_succ _, Nat.zero_le _, Nat.zero_le _, List.Pairwise.nil, (fun _ he => nomatch he), fun i => ?_⟩
    simp [State.clearVolatile, State.reset, Tariff.reset]
  band := fun _ _ => rfl
  takings := fun n => absurd h n
  attention := fun _ => ⟨Nat.zero_le _, fun _ => ⟨rfl, rfl⟩, fun n => absurd n (lt_irrefl 0)⟩
  engine := fun _ => ⟨List.nodup_nil, (fun _ hw => nomatch hw), (fun _ hf => nomatch hf), Nat.zero_le _⟩
  orders := fun _ p => by
    have : s.clearVolatile.ctx p = Position.reset := by simp [State.ctx, State.clearVolatile, State.reset]
    rw [this]; rfl

theorem tear (cut : Cut) (s : State) : Keeps cleared s (s.tear cut) := by
  unfold State.tear
  split
  · exact refl s
  · exact onRecord _ _ s

theorem pinReset (h : cleared) (cut : Cut) (change : Pins → Pins) (s : State) :
    Keeps cleared s (s.pinReset cut change) :=
  ((tear cut s).trans (clearVolatile h _)).trans (onPins _ _)

theorem startUp (s : State) : Keeps cleared s s.startUp :=
  (((onPort s id).trans (forLines allLines (fun t l => enableLine l t) _)).trans (onDir _ _)).trans (rebuildAsks _)

theorem leaveReset (change : Pins → Pins) (s : State) : Keeps cleared s (s.leaveReset change) := by
  unfold State.leaveReset
  dsimp only
  split
  · exact (onPins _ s).trans (startUp _)
  · exact onPins _ s

theorem beginDrain (s : State) : Keeps cleared s s.beginDrain :=
  (onPort s id).trans (forLines allLines (fun t l => disableLine l t) _)

theorem enterInReset (h : cleared) (s : State) : Keeps cleared s s.enterInReset :=
  (clearVolatile h s).trans (onPort _ id)

/-! ### The port and the attention unit -/

theorem readBuffer (s : State) : Keeps cleared s (match s.port.buffer[s.port.pointer]? with
    | some w => (s.answer .ok w).onPort fun p => { p with pointer := p.pointer + 1 }
    | none => s.answer .ok 0xFFF0#16) := by
  split
  · next w found =>
    obtain ⟨below, -⟩ := List.getElem?_eq_some_iff.1 found
    refine (answer .ok w s).trans (onPort _ fun h => ?_)
    rw [Port.bufferLegal_iff] at h ⊢
    exact ⟨h.1, below⟩
  · exact answer _ _ s

theorem stage (f : Staging → Staging) (data : Word) (s : State) : Keeps cleared s (s.stage f data) :=
  (onPort s id).trans (answer _ _ _)

theorem setMode (mode : AttnMode) (mask : BitVec 7) (s : State) :
    Keeps cleared s (s.onAttention (Attention.setMode mode mask)) :=
  onAttention s fun h => by
    unfold Attention.setMode
    split
    · exact h
    · exact ⟨Nat.zero_le _, fun _ => ⟨rfl, rfl⟩, fun n => absurd n (lt_irrefl 0)⟩

theorem attnPulseEnd (s : State) : Keeps cleared s (s.onAttention fun a =>
    if a.mode = .pulse ∧ a.driving = true then { a with driving := false }.beginPulse else a) :=
  onAttention s fun h => by
    split
    · next pulse =>
      refine Calls.beginPulse_legal h.1 fun level => ?_
      rw [show s.attention.mode = .pulse from pulse.1] at level
      cases level
    · exact h

/-! ### Cards, slots and regions -/

theorem joinQueue {w : QueueEntry} (h : w.isValue = false) (attempts : w.attempts ≤ 2) (s : State) :
    Keeps cleared s (s.joinQueue w) :=
  calls (P := fun _ => True) (Calls.joinQueue w s (fun v => absurd v (by simp [h])) attempts)

theorem setLock (region : BitVec 20) (locked : Bool) (s : State) : Keeps cleared s (s.setLock region locked) := by
  unfold State.setLock
  split
  · exact answerLatched _ _ s
  · exact (onEngine s fun h => Engine.sound_of_eq h rfl rfl h.2.2.2).trans (answerLatched _ _ _)

theorem issue (s : State) : Keeps cleared s
    (let g := s.port.staging
    if g.serial = 0 ∨ g.serial = 4294967295#32 ∨ g.value = 0 ∨ Config.maxBalance < g.value.toNat then
      s.answerLatched .range 0
    else if (s.lookup g.serial).isSome then s.answerLatched .exists 0
    else if s.engine.locks = 0xFFFF#16 then s.answerLatched .locked 0
    else
      match s.issueSlot with
      | none => s.answerLatched .storeFull 0
      | some x =>
        if s.hasRoom then (s.issueInto x).answerLatched .ok (toWord x.val)
        else s.answerLatched .queueFull 0) := by
  dsimp only
  repeat' split
  all_goals
    first
    | exact answerLatched _ _ s
    | exact ((onDir _ s).trans (joinQueue rfl (Nat.zero_le _) _)).trans (answerLatched _ _ _)

theorem retire (e : DirEntry) (s : State) : Keeps cleared s
    (if s.inUse e then s.answerLatched .inUse 0
    else if s.hasEntry e.slot then s.answerLatched .pending 0
    else if s.hasRoom then (s.retireRecord e.slot).answerLatched .ok (toWord e.slot.val)
    else s.answerLatched .queueFull 0) := by
  repeat' split
  all_goals
    first
    | exact answerLatched _ _ s
    | exact ((onDir _ s).trans (joinQueue rfl (Nat.zero_le _) _)).trans (answerLatched _ _ _)

theorem eraseSlot (s : State) : Keeps cleared s
    (let x := s.port.staging.slot
    if s.slotLocked x then s.answerLatched .locked 0
    else if s.hasErase x then s.answerLatched .pending 0
    else if s.slotClass x ≠ 1 then s.answerLatched .badState 0
    else if s.hasRoom then
      (s.joinQueue { work := .eraseSlot, slot := x, attempts := 0, origin := .host }).answerLatched .ok
        (toWord x.val)
    else s.answerLatched .queueFull 0) := by
  dsimp only
  repeat' split
  all_goals
    first
    | exact answerLatched _ _ s
    | exact (joinQueue rfl (Nat.zero_le _) s).trans (answerLatched _ _ _)

end Keeps

end Sys2Proof.Machine
end

section
/-!
PROOFS. Every command completes (O3), and every step keeps the ranges and the law of the write queue (O56).
-/

namespace Sys2Proof.Machine

theorem Keeps.tick {cleared : Prop} (s : State) : Keeps cleared s s.tick := by
  refine unlessReset (fun s => ?_) s
  refine Keeps.trans (onTariff s (fun h => ?_) (fun _ => id) fun _ => rfl) (forPositions _ (fun p => onCtx p _) _)
  obtain ⟨second, -, rest⟩ := h
  exact ⟨second, Nat.min_le_left _ _, rest⟩

namespace Keeps

/-- The passage over the commands: each completes, and keeps what `Keeps` collects. -/
theorem exec_completes (c : Instr) (s : State) :
    ∃ t, exec c s = .next t ∧ Keeps (c = .collectTakings ∨ resets c = true) s t := by
  cases c with
  | powerOn cut => exact ⟨_, rfl, pinReset (.inr rfl) cut _ s⟩
  | powerFailure cut => exact ⟨_, rfl, pinReset (.inr rfl) cut _ s⟩
  | resetnAsserted cut =>
    refine ⟨_, rfl, ?_⟩
    split
    · exact onPins _ s
    · exact pinReset (.inr rfl) cut _ s
  | resetnDeasserted =>
    refine ⟨_, rfl, ?_⟩
    split
    · exact leaveReset _ s
    · exact refl s
  | pwrlowAsserted =>
    refine ⟨_, rfl, ?_⟩
    split
    · exact refl s
    · exact (onPins _ s).trans (calls (Calls.forPositions _ _ _ fun _ _ t => Calls.checkpoint trivial t))
  | pwrlowDeasserted => exact ⟨_, rfl, onPins _ s⟩
  | transferIgnored => exact ⟨_, rfl, unlessReset (fun s => onPort s id) s⟩
  | frameForOtherUnit => exact ⟨_, rfl, unlessReset (endTransfer false) s⟩
  | badKind => exact ⟨_, rfl, takeFrame (answer _ _) s⟩
  | readStatus => exact ⟨_, rfl, takeFrame (fun s => (answer _ _ s).trans (onPort _ id)) s⟩
  | readBuffer => exact ⟨_, rfl, takeFrame readBuffer s⟩
  | enableWrite => exact ⟨_, rfl, takeFrame (whenRunning fun s => (answer _ _ s).trans (onPort _ id)) s⟩
  | resetEnter => exact ⟨_, rfl, takeFrame (whenRunning fun s => (beginDrain s).trans (answer _ _ _)) s⟩
  | enterInReset =>
    refine ⟨_, rfl, unlessReset (fun s => ?_) s⟩
    split
    · exact enterInReset (.inr rfl) s
    · exact refl s
  | resetLeave =>
    refine ⟨_, rfl, takeFrame (fun s => ?_) s⟩
    split
    · exact answer _ _ s
    · exact (startUp s).trans (answer _ _ _)
    · exact answer _ _ s
    · exact answer _ _ s
  | serialHigh value => exact ⟨_, rfl, takeFrame (stage _ _) s⟩
  | serialLow value => exact ⟨_, rfl, takeFrame (stage _ _) s⟩
  | stageValue value => exact ⟨_, rfl, takeFrame (stage _ _) s⟩
  | stageExpiry value => exact ⟨_, rfl, takeFrame (stage _ _) s⟩
  | stageClass operand =>
    refine ⟨_, rfl, takeFrame (fun s => ?_) s⟩
    split
    · exact answer _ _ s
    · exact stage _ _ s
  | stageSlot operand =>
    refine ⟨_, rfl, takeFrame (fun s => ?_) s⟩
    split
    · exact answer _ _ s
    · exact stage _ _ s
  | stageTariffA zone band charge => exact ⟨_, rfl, takeFrame (stage _ _) s⟩
  | stageTariffB value => exact ⟨_, rfl, takeFrame (stage _ _) s⟩
  | stageTariffC standard concession => exact ⟨_, rfl, takeFrame (stage _ _) s⟩
  | issue => exact ⟨_, rfl, takeFrame (latched issue) s⟩
  | credit =>
    refine ⟨_, rfl, takeFrame (latched fun s => ?_) s⟩
    split
    · exact answerLatched _ _ s
    · exact onUnlockedCard (fun e => fromStepSix _ e _) s
  | setExpiry => exact ⟨_, rfl, takeFrame (latched (onUnlockedCard fun e => fromStepSix _ e _)) s⟩
  | block => exact ⟨_, rfl, takeFrame (latched (onUnlockedCard fun e => fromStepSix _ e _)) s⟩
  | unblock => exact ⟨_, rfl, takeFrame (latched (onUnlockedCard fun e => fromStepSix _ e _)) s⟩
  | retire => exact ⟨_, rfl, takeFrame (latched (onUnlockedCard retire)) s⟩
  | eraseSlot => exact ⟨_, rfl, takeFrame (latched eraseSlot) s⟩
  | queryCard =>
    refine ⟨_, rfl, takeFrame (whenRunning fun s => ?_) s⟩
    split
    · exact answer _ _ s
    · exact startQuery _ _ s
  | querySlot =>
    refine ⟨_, rfl, takeFrame (whenRunning fun s => ?_) s⟩
    dsimp only
    split
    · exact (load (by simp) s).trans (answer _ _ _)
    · exact startQuery _ _ s
  | unlockRegion region => exact ⟨_, rfl, takeFrame (latched (setLock region false)) s⟩
  | lockRegion region => exact ⟨_, rfl, takeFrame (latched (setLock region true)) s⟩
  | writeTariff => exact ⟨_, rfl, takeFrame writeTariff s⟩
  | barZone zone band =>
    refine ⟨_, rfl, takeFrame (fun s => ?_) s⟩
    split
    · exact answer _ _ s
    · exact (onTariff s id (fun _ => id) fun _ => rfl).trans (answer _ _ _)
  | writeBand minute band => exact ⟨_, rfl, takeFrame (writeBand minute band) s⟩
  | clearBand minute => exact ⟨_, rfl, takeFrame (clearBand minute) s⟩
  | setDay day =>
    exact ⟨_, rfl, takeFrame (fun s => (onTariff s id (fun _ => id) fun _ => rfl).trans (answer _ _ _)) s⟩
  | setTime second => exact ⟨_, rfl, takeFrame (setTime second) s⟩
  | collectTakings => exact ⟨_, rfl, takeFrame (whenRunning (collectTakings (.inl rfl))) s⟩
  | configureLinePeriod line period =>
    exact ⟨_, rfl, takeFrame (onLineOperand line fun l => configureLinePeriod l period) s⟩
  | configureLineTiming line pitch =>
    exact ⟨_, rfl, takeFrame (onLineOperand line fun l => configureLineTiming l pitch) s⟩
  | enableLine line =>
    exact ⟨_, rfl, takeFrame (whenRunning (onLineOperand line fun l s => (enableLine l s).trans (answer _ _ _))) s⟩
  | disableLine line =>
    exact ⟨_, rfl, takeFrame (whenRunning (onLineOperand line fun l s => (disableLine l s).trans (answer _ _ _))) s⟩
  | setSilentLimit limit =>
    refine ⟨_, rfl, takeFrame (onRange 2 15 limit fun n g h1 h2 h => ?_) s⟩
    simp only [Settings.legal, decide_eq_true_eq] at h ⊢; omega
  | setGrace window =>
    refine ⟨_, rfl, takeFrame (onRange 0 30 window fun n g h1 h2 h => ?_) s⟩
    simp only [Settings.legal, decide_eq_true_eq] at h ⊢; omega
  | setCheckpoint step =>
    refine ⟨_, rfl, takeFrame (onRange 1 64 step fun n g h1 h2 h => ?_) s⟩
    simp only [Settings.legal, decide_eq_true_eq] at h ⊢; omega
  | enablePosition position =>
    exact ⟨_, rfl, takeFrame (whenRunning (onPositionOperand position fun p s =>
      (enablePosition p s).trans (answer _ _ _))) s⟩
  | disablePosition position =>
    exact ⟨_, rfl, takeFrame (whenRunning (onPositionOperand position fun p s =>
      (disablePosition p s).trans (answer _ _ _))) s⟩
  | releasePosition position =>
    exact ⟨_, rfl, takeFrame (whenRunning (onPositionOperand position fun p s =>
      (enterOff p s).trans (answer _ _ _))) s⟩
  | readPosition position =>
    exact ⟨_, rfl, takeFrame (whenRunning (onPositionOperand position fun p s =>
      (load (by simp [Position.words, serialWords]) s).trans (answer _ _ _))) s⟩
  | readAttention => exact ⟨_, rfl, takeFrame (whenRunning (answer _ _)) s⟩
  | clearAttention mask =>
    exact ⟨_, rfl, takeFrame (whenRunning fun s => (onAttention s id).trans (answer _ _ _)) s⟩
  | setAttentionMode pulse mask =>
    exact ⟨_, rfl, takeFrame (whenRunning fun s => (setMode _ mask s).trans (answer _ _ _)) s⟩
  | readAttentionDetail =>
    exact ⟨_, rfl, takeFrame (whenRunning fun s =>
      (load (by simp [State.attentionWords, serialWords]) s).trans (answer _ _ _)) s⟩
  | attnPulseEnd => exact ⟨_, rfl, unlessReset attnPulseEnd s⟩
  | cycleStart line => exact ⟨_, rfl, unlessReset (cycleStart line) s⟩
  | cycleOpenFrameEnd line =>
    exact ⟨_, rfl, unlessReset (fun s => onLine_settings line s (by simp) (by simp)) s⟩
  | transmissionStart line time =>
    exact ⟨_, rfl, unlessReset (fun s => onLine_settings line s (by simp) (by simp)) s⟩
  | transmissionEnd line time bits =>
    exact ⟨_, rfl, unlessReset (fun s => onLine_settings line s (by simp) (by simp)) s⟩
  | slotWindowClose line => exact ⟨_, rfl, unlessReset (windowClose line) s⟩
  | intervalExpiry position =>
    exact ⟨_, rfl, unlessReset (fun s => calls (P := fun _ => True) (Calls.intervalExpiry trivial s)) s⟩
  | graceTimerExpiry position =>
    exact ⟨_, rfl, unlessReset (fun s => calls (P := fun _ => True) (Calls.graceExpiry trivial s)) s⟩
  | clockStep =>
    exact ⟨_, rfl, unlessReset (fun s => onTariff s Tariff.clockStep_legal Tariff.clockStep_bandCurrent
      fun _ => Tariff.clockStep_takings _) s⟩
  | lineFaultEvent line => exact ⟨_, rfl, unlessReset (lineFault line) s⟩
  | storeReadComplete change => exact ⟨_, rfl, unlessReset (readComplete change) s⟩
  | entryStart => exact ⟨_, rfl, unlessReset entryStart s⟩
  | valueWriteComplete left => exact ⟨_, rfl, unlessReset (valueWriteComplete left) s⟩
  | issueStepComplete left => exact ⟨_, rfl, unlessReset (issueStepComplete left) s⟩
  | eraseComplete left => exact ⟨_, rfl, unlessReset (eraseComplete left) s⟩
  | supplyValid =>
    refine ⟨_, rfl, ?_⟩
    split
    · exact leaveReset _ s
    · exact refl s
  | transferStart =>
    refine ⟨_, rfl, unlessReset (fun s => ?_) s⟩
    split
    · exact refl s
    · exact onPort s id

end Keeps

theorem exec_keeps {c : Instr} {s t : State} (h : exec c s = .next t) :
    Keeps (c = .collectTakings ∨ resets c = true) s t := by
  obtain ⟨u, hu, kept⟩ := Keeps.exec_completes c s
  rw [hu] at h
  cases h
  exact kept

/-- Settles O3. -/
theorem everyCommandCompletes : Obligations.EveryCommandCompletes := fun c s =>
  let ⟨t, completes, kept⟩ := Keeps.exec_completes c s
  ⟨t, completes, kept.pending⟩

/-- A step is a tenth of a second, or the command at the front with the rest of the queue waiting. -/
theorem step_next {s t : State} (h : step s = .next t) :
    s.pending = [] ∧ t = s.tick ∨ ∃ c rest, s.pending = c :: rest ∧ exec c { s with pending := rest } = .next t := by
  unfold step at h
  split at h
  · next empty => cases h; exact .inl ⟨empty, rfl⟩
  · next c rest front => exact .inr ⟨c, rest, front, h⟩

/-- What holds of the states before and after a tenth of a second and every command holds of those of a step: the
laws do not speak of the waiting commands. -/
theorem step_induction {R : State → State → Prop} (tick : ∀ s, R s s.tick)
    (command : ∀ c s t, exec c s = .next t → R s t) {s t : State} (h : step s = .next t) :
    R s t ∨ ∃ rest, R { s with pending := rest } t := by
  obtain ⟨-, rfl⟩ | ⟨c, rest, -, h⟩ := step_next h
  · exact .inl (tick s)
  · exact .inr ⟨rest, command c _ t h⟩

/-- Settles O56. -/
theorem stepsKeepTheRanges : Obligations.StepsKeepTheRanges := by
  have kept : ∀ s t : State, step s = .next t → Keeps True s t ∨ ∃ rest, Keeps True { s with pending := rest } t :=
    fun s t => step_induction Keeps.tick fun c u v h => { exec_keeps h with takings := fun n => absurd trivial n }
  refine ⟨fun s t h => ?_, fun s t h => ?_⟩
  · obtain k | ⟨rest, k⟩ := kept s t h
    · exact ⟨k.store, k.lines, k.settings, k.buffer, fun l b => ⟨k.tariff l, k.band l b⟩, k.attention⟩
    · exact ⟨k.store, k.lines, k.settings, k.buffer, fun l b => ⟨k.tariff l, k.band l b⟩, k.attention⟩
  · obtain k | ⟨rest, k⟩ := kept s t h <;> exact k.engine

end Sys2Proof.Machine
end

section
/-!
PROOFS. The admission law fails of a state in which 96 records are claimed and no entry waits (O59). No run comes there,
for a position claims one card; but the laws that the statement supposes do not bound the claimed records by the
positions. A checkpoint settlement of a claim that is kept then stands at the head of the queue, the 96 places are
filled, and the head's record is claimed.
-/

namespace Sys2Proof.Machine

/-- The slot of each claimed record. -/
def crowdedSlot (i : Nat) : Slot := Fin.ofNat 8192 i

/-- A GOOD record claimed by position 1. -/
def crowdedEntry (i : Nat) : DirEntry :=
  { serial := BitVec.ofNat 32 i, slot := crowdedSlot i, cls := .standard, condition := .good, claimedBy := some 0
    live := some (.a, 0) }

/-- The image of the card that position 1 holds. -/
def crowdedImage : Image :=
  { state := .active, balance := 5, expiry := 0, useCount := 1, lastPosition := some 0, lastUseDay := 0 }

/-- Position 1, holding the card of slot 0. -/
def crowdedHolder : Position :=
  { Position.reset with
    state := .held, claimBalance := 5, working := 5
    claim := some { slot := crowdedSlot 0, serial := 0, cls := .standard, image := crowdedImage }
    order := { verdict := .accepted, warn := false, shown := 5 } }

/-- RUNNING, with 96 records claimed and nothing in the queue. -/
def crowdedState : State :=
  { State.reset with
    pins := { Pins.reset with resetn := false }
    port := { Port.reset with mode := .running }
    dir := { Directory.reset with ready := true, entries := (List.range 96).map crowdedEntry }
    positions := State.reset.positions.set 0 crowdedHolder }

/-- The settlement that PWRLOW queues. -/
def crowdedSettlement : QueueEntry :=
  { work := .value crowdedImage, slot := crowdedSlot 0, attempts := 0, origin := .position }

/-- The state after PWRLOW: the settlement waits alone. -/
def crowdedAfter : State :=
  { crowdedState with
    pins := { crowdedState.pins with pwrlow := true }
    engine := { Engine.reset with waiting := [crowdedSettlement] } }

theorem crowdedSlot_inj {i j : Nat} (hi : i < 96) (hj : j < 96) (h : crowdedSlot i = crowdedSlot j) : i = j := by
  have := congrArg Fin.val h
  simp only [crowdedSlot, Fin.ofNat] at this
  omega

theorem crowdedState_ctx (p : Pos) : crowdedState.ctx p = if p = 0 then crowdedHolder else Position.reset := by
  simp only [State.ctx, crowdedState, State.reset, Fin.getElem_fin, Vector.getElem_set, Vector.getElem_replicate,
    Fin.ext_iff, eq_comm]
  rfl

theorem crowdedState_directorySound : crowdedState.directorySound where
  slots := by
    have : crowdedState.placed = (List.range 96).map crowdedSlot := by
      simp [State.placed, crowdedState, Directory.reset, State.reset, Engine.reset, Engine.erasing, crowdedEntry,
        Function.comp_def]
    rw [this]
    refine List.Nodup.map_on (fun i hi j hj => ?_) List.nodup_range
    exact crowdedSlot_inj (List.mem_range.1 hi) (List.mem_range.1 hj)
  serials := by
    show (((List.range 96).map crowdedEntry).map DirEntry.serial).Nodup
    rw [List.map_map]
    refine List.Nodup.map_on (fun i hi j hj h => ?_) List.nodup_range
    have := congrArg BitVec.toNat h
    simp only [Function.comp, crowdedEntry, BitVec.toNat_ofNat] at this
    have := List.mem_range.1 hi
    have := List.mem_range.1 hj
    omega
  rebuild := fun _ hr => nomatch hr
  requests := .inl rfl
  served := fun _ => ⟨rfl, rfl⟩
  asleep := fun h => by obtain h | h := h <;> cases h
  claims := fun p k hk => by
    rw [crowdedState_ctx] at hk
    split at hk
    · next first =>
      cases hk
      exact ⟨crowdedEntry 0, List.mem_map.2 ⟨0, by simp, rfl⟩, rfl, congrArg some first.symm⟩
    · cases hk

theorem crowdedState_queueBounded : crowdedState.queueBounded := by
  refine ⟨?_, fun _ _ e he => nomatch he⟩
  have claims : crowdedState.unqueuedClaims ≤ 96 := by
    refine (List.length_filter_le _ _).trans_eq ?_
    simp [crowdedState]
  show 0 + crowdedState.unqueuedClaims ≤ 96
  omega

/-- A position without a claim makes no settlement. -/
theorem State.checkpoint_of_none {p : Pos} {s : State} (h : (s.ctx p).claim = none) : s.checkpoint p = s := by
  unfold State.checkpoint
  rw [h]

theorem forPositions_eq_self {f : Pos → State → State} {s : State} {ps : List Pos} (h : ∀ p ∈ ps, f p s = s) :
    forPositions ps f s = s := by
  induction ps with
  | nil => rfl
  | cons p ps ih =>
    obtain ⟨hp, hps⟩ := List.forall_mem_cons.1 h
    show forPositions ps f (f p s) = s
    rw [hp, ih hps]

/-- Position 1 is the first of the 48. -/
theorem allPositions_eq_cons : ∃ rest, allPositions = 0 :: rest ∧ ∀ p ∈ rest, p ≠ 0 := by
  refine ⟨allPositions.tail, rfl, ?_⟩
  decide

theorem exec_pwrlow_crowdedState : exec .pwrlowAsserted crowdedState = .next crowdedAfter := by
  obtain ⟨rest, all, others⟩ := allPositions_eq_cons
  have first : State.checkpoint 0 (crowdedState.onPins fun p => { p with pwrlow := true }) = crowdedAfter := by
    have holder : crowdedState.ctx 0 = crowdedHolder := crowdedState_ctx 0
    unfold State.checkpoint
    simp only [State.onPins_ctx, holder]
    rfl
  show done (forPositions allPositions State.checkpoint (crowdedState.onPins fun p => { p with pwrlow := true })) = _
  rw [all]
  show done (forPositions rest State.checkpoint (State.checkpoint 0 _)) = _
  rw [first, forPositions_eq_self fun p hp => State.checkpoint_of_none ?_]
  have : crowdedAfter.ctx p = crowdedState.ctx p := rfl
  rw [this, crowdedState_ctx, if_neg (others p hp)]
  rfl

/-- One of the 96 claimed records has an entry waiting. -/
theorem crowdedAfter_unqueuedClaims : crowdedAfter.unqueuedClaims = 95 := by
  have waits : ∀ x, crowdedAfter.hasWaitingValue x = (crowdedSlot 0 == x) := fun x => by
    simp [State.hasWaitingValue, crowdedAfter, crowdedSettlement, QueueEntry.isValue]
  have others : ∀ i ∈ List.range 95, (crowdedSlot 0 == crowdedSlot (i + 1)) = false := fun i hi => by
    have := List.mem_range.1 hi
    exact beq_false_of_ne fun h => absurd (crowdedSlot_inj (by omega) (by omega) h) (by omega)
  have entries : crowdedAfter.dir.entries = crowdedEntry 0 :: (List.range 95).map fun i => crowdedEntry (i + 1) := by
    show (List.range (95 + 1)).map crowdedEntry = _
    rw [List.range_succ_eq_map, List.map_cons, List.map_map]
    rfl
  unfold State.unqueuedClaims
  rw [entries, List.filter_cons_of_neg (by simp [waits, crowdedEntry]), List.filter_eq_self.2, List.length_map,
    List.length_range]
  intro e he
  obtain ⟨i, hi, rfl⟩ := List.mem_map.1 he
  simp [waits, crowdedEntry, others i hi]

theorem crowdedAfter_not_queueBounded : ¬crowdedAfter.queueBounded := by
  intro ⟨_, head⟩
  have claimed : crowdedEntry 0 ∈ crowdedAfter.dir.entries := List.mem_map.2 ⟨0, by simp, rfl⟩
  have filled : crowdedAfter.engine.waiting.length + crowdedAfter.unqueuedClaims = Config.queuePlaces := by
    rw [crowdedAfter_unqueuedClaims]; rfl
  have free := head rfl filled crowdedSettlement rfl rfl (crowdedEntry 0) claimed rfl
  cases free

/-- Refutes O59: in `crowdedState` every law supposed holds, and PWRLOW ends the admission law's. -/
theorem not_stepsKeepTheQueueBounded : ¬Obligations.StepsKeepTheQueueBounded := by
  intro keeps
  let s : State := { crowdedState with pending := [.pwrlowAsserted] }
  have steps : step s = .next crowdedAfter := exec_pwrlow_crowdedState
  have engine : s.engine.sound := ⟨List.nodup_nil, (fun _ h => nomatch h), (fun _ h => nomatch h), Nat.zero_le _⟩
  have directory : s.directorySound :=
    let ⟨h1, h2, h3, h4, h5, h6, h7⟩ := crowdedState_directorySound
    ⟨h1, h2, h3, h4, h5, h6, h7⟩
  exact crowdedAfter_not_queueBounded (keeps s crowdedAfter steps engine directory crowdedState_queueBounded)

end Sys2Proof.Machine
end

section
/-!
PROOFS. The operations of claims and calls, taken apart once: `Acts` chains the updates that a position makes with the
claim that it holds, and `Moves` adds the grants, the claims in flight, the notes, the refreshes and the read requests.
A law that each of these updates keeps is kept by every report, expiry, answer and completed read.
-/

namespace Sys2Proof.Machine

/-- What positions do with the claims they hold: a context changes and keeps its claim, a flag is raised, a debit is
counted, a claim ends, or a checkpoint settles it. -/
inductive Acts : State → State → Prop
  | refl (s : State) : Acts s s
  | trans {s t u : State} : Acts s t → Acts t u → Acts s u
  | onCtx (p : Pos) (f : Position → Position) (s : State) :
      (f (s.ctx p)).claim = (s.ctx p).claim → Acts s (s.onCtx p f)
  | raise (g : Flag) (f : Attention → Attention) (s : State) : Acts s (s.raise g f)
  | count (t : Vector Nat 16) (s : State) : Acts s (s.onTariff fun g => { g with takings := t })
  | endClaim (p : Pos) (blocked : Bool) (s : State) : Acts s (s.endClaim p blocked)
  | checkpoint (p : Pos) (s : State) : Acts s (s.checkpoint p)

/-- A changed directory entry is still that of its serial and slot, and claimed as before. -/
def DirEntry.sameCard (d e : DirEntry) : Prop := d.serial = e.serial ∧ d.slot = e.slot ∧ d.claimedBy = e.claimedBy

/-- What claims, reports and reads do. -/
inductive Moves : State → State → Prop
  | acts {s t : State} : Acts s t → Moves s t
  | trans {s t u : State} : Moves s t → Moves t u → Moves s u
  | grant (x : Serial) (p : Pos) (i : Option Image) (s : State) :
      Moves s ((s.completeClaim x p i).1.takeAnswer p (s.completeClaim x p i).2)
  | claims (f : List FlightClaim → List FlightClaim) (s : State) :
      Moves s (s.onDir fun d => { d with claims := f d.claims })
  | note (x : Slot) (f : DirEntry → DirEntry) (s : State) : (∀ e, (f e).sameCard e) → Moves s (s.onEntry x f)
  | offer (x : Slot) (i : Image) (origin : Origin) (s : State) : Moves s ((s.offerValue x i origin).getD s)
  | coalesce (x : Slot) (i : Image) (origin : Origin) (s : State) : Moves s (s.coalesce x i origin)
  | read (r : ReadRequest) (s : State) : r.who ≠ .rebuild → Moves s (s.requestRead r)

/-! ### Metering -/

namespace Acts

theorem raiseStoreFault (x : Slot) (cause : Option (EntryKind × Origin)) (s : State) :
    Acts s (s.raiseStoreFault x cause) := raise _ _ s

theorem raiseHotCard (x : Serial) (p : Pos) (s : State) : Acts s (s.raiseHotCard x p) := raise _ _ s

theorem raiseAdmission (s : State) : Acts s s.raiseAdmission := raise _ _ s

theorem addTakings (cls : CardClass) (zone : BitVec 4) (units : Nat) (s : State) :
    Acts s (s.addTakings cls zone units) := by
  unfold State.addTakings
  split
  · exact refl s
  · dsimp only
    split
    · exact (count _ s).trans (raise _ _ _)
    · exact count _ s

theorem afterTariffRead (zone : BitVec 4) (s : State) : Acts s (s.afterTariffRead zone) := by
  unfold State.afterTariffRead
  split
  · exact refl s
  · exact raise _ _ s

theorem debit (p : Pos) (zone : BitVec 4) (units : Nat) (s : State) : Acts s (s.debit p zone units) := by
  unfold State.debit
  split
  · exact refl s
  · next k _ =>
    have spent := (addTakings k.cls zone units s).trans (onCtx p (Position.spend k.cls units) _ rfl)
    dsimp only
    repeat' split
    · exact refl s
    · exact spent.trans (checkpoint p _)
    · exact spent

theorem meter (p : Pos) (k : Call) (amount : Nat) (s : State) : Acts s (s.meter p k amount) := by
  refine Acts.trans (Acts.trans (onCtx p _ s rfl) (debit p _ _ _)) (onCtx p _ _ ?_)
  unfold Position.updateWarn
  split <;> rfl

theorem enterCut (p : Pos) (v : Verdict) (s : State) : Acts s (s.onCtx p (Position.enterCut v)) :=
  onCtx p _ s rfl

theorem enterGrace (p : Pos) (w a : Nat) (k : Call) (s : State) : Acts s (s.onCtx p (Position.enterGrace w a k)) :=
  onCtx p _ s (by unfold Position.enterGrace; repeat' split
                  all_goals rfl)

theorem answerEvent (p : Pos) (zone pulse : BitVec 4) (s : State) : Acts s (s.answerEvent p zone pulse) := by
  unfold State.answerEvent
  dsimp only
  split
  · repeat' split
    · exact (afterTariffRead _ s).trans (meter p _ _ _)
    · exact (afterTariffRead _ s).trans (enterGrace p _ _ _ _)
    · exact (afterTariffRead _ s).trans (meter p _ _ _)
    · exact (afterTariffRead _ s).trans (enterGrace p _ _ _ _)
  · exact (afterTariffRead _ s).trans (enterCut p _ _)

theorem intervalExpiry (p : Pos) (s : State) : Acts s (s.intervalExpiry p) := by
  unfold State.intervalExpiry
  dsimp only
  repeat' split
  · exact refl s
  · exact (afterTariffRead _ s).trans (enterCut p _ _)
  · exact (afterTariffRead _ s).trans (meter p _ _ _)
  · exact (afterTariffRead _ s).trans (enterGrace p _ _ _ _)
  · exact refl s

theorem chargePulses (p : Pos) (rate interval n : Nat) (s : State) :
    Acts s (s.chargePulses p rate interval n) := by
  induction n generalizing s with
  | zero => exact refl s
  | succ n ih =>
    unfold State.chargePulses
    dsimp only
    repeat' split
    · exact refl s
    · exact (meter p _ _ s).trans (ih _)
    · exact enterGrace p _ _ _ s

theorem meteredPulses (p : Pos) (pulse : BitVec 4) (s : State) : Acts s (s.meteredPulses p pulse) := by
  unfold State.meteredPulses
  dsimp only
  repeat' split
  · exact onCtx p _ s rfl
  · exact ((onCtx p _ s rfl).trans (afterTariffRead _ _)).trans (enterCut p _ _)
  · exact ((onCtx p _ s rfl).trans (afterTariffRead _ _)).trans (chargePulses p _ _ _ _)
  · exact refl s

theorem gracePulses (p : Pos) (pulse : BitVec 4) (s : State) : Acts s (s.gracePulses p pulse) := by
  unfold State.gracePulses
  dsimp only
  repeat' split
  · exact onCtx p _ s rfl
  · exact ((onCtx p _ s rfl).trans (afterTariffRead _ _)).trans (enterCut p _ _)
  · exact ((onCtx p _ s rfl).trans (afterTariffRead _ _)).trans (enterCut p _ _)
  · exact ((onCtx p _ s rfl).trans (afterTariffRead _ _)).trans (onCtx p _ _ rfl)
  · exact refl s

theorem pulses (p : Pos) (pulse : BitVec 4) (s : State) : Acts s (s.pulses p pulse) := by
  unfold State.pulses
  split
  · exact meteredPulses p pulse s
  · exact gracePulses p pulse s
  · exact refl s

theorem graceExpiry (p : Pos) (s : State) : Acts s (s.graceExpiry p) := by
  unfold State.graceExpiry
  repeat' split
  · exact refl s
  · exact enterCut p _ s
  · exact refl s

theorem gracePayment (p : Pos) (s : State) : Acts s (s.gracePayment p) := by
  unfold State.gracePayment
  dsimp only
  repeat' split
  · exact meter p _ _ s
  · exact (endClaim p _ s).trans (onCtx p _ _ rfl)
  · exact refl s

/-! ### The entries to LOST and OFF, and BLOCK -/

theorem giveUp (p : Pos) (target : PosState) (s : State) : Acts s (s.giveUp p target) :=
  (endClaim p _ s).trans (onCtx p _ _ rfl)

theorem enterLost (p : Pos) (s : State) : Acts s (s.enterLost p) := by
  unfold State.enterLost
  dsimp only
  repeat' split
  · exact refl s
  · exact (giveUp p _ s).trans (raise _ _ _)
  · exact giveUp p _ s

theorem enterOff (p : Pos) (s : State) : Acts s (s.enterOff p) := by
  unfold State.enterOff
  split
  · exact refl s
  · exact giveUp p _ s

theorem lostToOff (p : Pos) (s : State) : Acts s (s.lostToOff p) := by
  unfold State.lostToOff
  split
  · exact enterOff p s
  · exact refl s

theorem leaveOff (p : Pos) (s : State) : Acts s (s.leaveOff p) := onCtx p _ s rfl

theorem blockThrough (p : Pos) (s : State) : Acts s (s.blockThrough p) := by
  unfold State.blockThrough
  split
  · exact refl s
  · refine (endClaim p _ s).trans (onCtx p _ _ ?_)
    dsimp only
    split <;> rfl

theorem preparePosition (p : Pos) (s : State) : Acts s (s.preparePosition p) := by
  unfold State.preparePosition
  dsimp only
  split
  · exact (leaveOff p s).trans (onCtx p _ _ rfl)
  · exact onCtx p _ s rfl

theorem forPositions (ps : List Pos) {f : Pos → State → State} (h : ∀ p s, Acts s (f p s)) (s : State) :
    Acts s (forPositions ps f s) := by
  induction ps generalizing s with
  | nil => exact refl s
  | cons p ps ih => exact (h p s).trans (ih _)

/-! ### Reports without a claim -/

theorem unpaidTest (p : Pos) (zone : BitVec 4) (s : State) : Acts s (s.unpaidTest p zone) := by
  unfold State.unpaidTest
  dsimp only
  repeat' split
  · exact afterTariffRead _ s
  · exact (afterTariffRead _ s).trans (enterCut p _ _)
  · exact (afterTariffRead _ s).trans (enterCut p _ _)

theorem vacantReport (p : Pos) (r : Report) (s : State) : Acts s (s.vacantReport p r) := by
  unfold State.vacantReport
  repeat' split
  · exact onCtx p _ s rfl
  · exact refl s
  · exact unpaidTest p _ s

theorem cardLeft (p : Pos) (r : Report) (s : State) : Acts s (s.cardLeft p r) :=
  (onCtx p _ s rfl).trans (vacantReport p r _)

theorem clearRefused (p : Pos) (s : State) : Acts s (s.onCtx p Position.clearRefused) := onCtx p _ s rfl

theorem abandon (p : Pos) (s : State) : Acts s (s.onCtx p Position.abandon) := onCtx p _ s rfl

theorem unpaidCutReport (p : Pos) (r : Report) (x : Option Serial) (s : State) :
    Acts s (s.unpaidCutReport p r x) := by
  unfold State.unpaidCutReport
  have cleared : Acts s (if r.present = false ∨ differs x (s.ctx p).refusedSerial = true then
      s.onCtx p Position.clearRefused else s) := by
    split
    · exact clearRefused p s
    · exact refl s
  dsimp only
  generalize (if r.present = false ∨ differs x (s.ctx p).refusedSerial = true then
      s.onCtx p Position.clearRefused else s) = t at cleared ⊢
  repeat' split
  · exact cleared
  · exact cleared.trans (onCtx p _ _ rfl)
  · exact cleared.trans (onCtx p _ _ rfl)
  · exact (cleared.trans (onCtx p _ _ rfl)).trans (vacantReport p r _)

theorem checkingReport (p : Pos) (r : Report) (x : Option Serial) (s : State) :
    Acts s (s.checkingReport p r x) := by
  unfold State.checkingReport
  repeat' split
  · exact (abandon p s).trans (cardLeft p r _)
  · exact onCtx p _ s rfl
  · exact refl s

theorem cutCard (p : Pos) (r : Report) (x : Option Serial) (s : State) : Acts s (s.cutCard p r x) := by
  unfold State.cutCard
  dsimp only
  split
  · split
    · exact endClaim p _ s
    · exact onCtx p _ s rfl
  · split
    · split
      · exact endClaim p _ s
      · exact refl s
    · refine onCtx p _ s ?_
      repeat' split
      all_goals rfl

theorem cutEnd (p : Pos) (r : Report) (s : State) : Acts s (s.cutEnd p r) := by
  unfold State.cutEnd
  dsimp only
  repeat' split
  · exact onCtx p _ s rfl
  · exact onCtx p _ s rfl
  · exact onCtx p _ s rfl
  · exact onCtx p _ s rfl
  · exact (onCtx p _ s rfl).trans (vacantReport p r _)

theorem cutReport (p : Pos) (r : Report) (x : Option Serial) (s : State) : Acts s (s.cutReport p r x) := by
  unfold State.cutReport
  dsimp only
  repeat' split
  · exact unpaidCutReport p r x s
  · exact (cutCard p r x s).trans (cutEnd p r _)
  · exact cutCard p r x s

theorem hangUp (p : Pos) (s : State) : Acts s (s.hangUp p) := onCtx p _ s rfl

theorem graceEnd (p : Pos) (s : State) : Acts s (s.graceEnd p) := onCtx p _ s rfl

theorem setSub (p : Pos) (sub : SubState) (s : State) : Acts s (s.onCtx p (Position.setSub sub)) := onCtx p _ s rfl

/-- A position acts on an answer that does not accept the card. -/
theorem takeAnswer_other (p : Pos) {a : ClaimAnswer} (h : a.isAccepted = false) (s : State) :
    Acts s (s.takeAnswer p a) := by
  unfold State.takeAnswer
  split
  · exact refl s
  · have answered := onCtx p (fun c => { c with outstanding := none }) s rfl
    dsimp only
    split
    · split
      · cases h
      · exact answered
    · cases a with
      | accepted x cls i => cases h
      | refused r =>
        cases (s.ctx p).state with
        | checking | grace | cut => exact answered.trans (onCtx p _ _ rfl)
        | off | vacant | reading | waiting | held | refused | metered | lost => exact answered
      | wait =>
        cases (s.ctx p).state with
        | checking | cut => exact answered.trans (onCtx p _ _ rfl)
        | grace | off | vacant | reading | waiting | held | refused | metered | lost => exact answered

end Acts

/-! ### Claims -/

namespace Moves

theorem refl (s : State) : Moves s s := .acts (.refl s)

theorem deliver_other (p : Pos) {a : ClaimAnswer} (h : a.isAccepted = false) (s : State) :
    Moves s (State.deliver p (s, a)).1 := .acts (Acts.takeAnswer_other p h s)

theorem holdBehind (x : Serial) (ps : List Pos) (s : State) : Moves s (s.holdBehind x ps) := claims _ s

theorem onClaim (p : Pos) (f : FlightClaim → FlightClaim) (s : State) : Moves s (s.onClaim p f) := claims _ s

theorem startClaim (x : Serial) (y : Slot) (p : Pos) (c : Copy) (s : State) : Moves s (s.startClaim x y p c) :=
  (claims (· ++ [{ serial := x, slot := y, position := p, second := false, appeared := false, held := [] }]) s).trans
    (read _ _ (by nofun))

theorem claimArrives (x : Serial) (p : Pos) (s : State) : Moves s (s.claimArrives x p).1 := by
  unfold State.claimArrives
  repeat' split
  · exact deliver_other p rfl s
  · exact deliver_other p rfl s
  · exact deliver_other p rfl s
  · exact deliver_other p rfl s
  · exact deliver_other p rfl s
  · exact holdBehind _ _ s
  · exact grant x p _ s
  · exact startClaim _ _ p _ s
  · exact grant x p _ s

theorem sendClaim (p : Pos) (x : Serial) (s : State) : Moves s (s.sendClaim p x) := by
  unfold State.sendClaim
  dsimp only
  split
  · exact .acts (.onCtx p _ s (by split <;> rfl))
  · exact (acts (.onCtx p _ s (by split <;> rfl))).trans (claimArrives x p _)

theorem answerInUse (ps : List Pos) (s : State) : Moves s (s.answerInUse ps) :=
  .acts (Acts.forPositions ps (fun q t => Acts.takeAnswer_other q rfl t) s)

theorem retryHeld (x : Serial) (ps : List Pos) (s : State) : Moves s (s.retryHeld x ps) := by
  induction ps generalizing s with
  | nil => exact refl s
  | cons p ps ih =>
    have arrives := claimArrives x p s
    unfold State.retryHeld
    split
    · next t e => rw [e] at arrives; exact arrives.trans (answerInUse ps t)
    · next t e => rw [e] at arrives; exact arrives.trans (ih t)
    · next t e => rw [e] at arrives; exact arrives.trans (holdBehind x ps t)

theorem finishClaim (c : FlightClaim) (i : Option Image) (s : State) : Moves s (s.finishClaim c i) := by
  have answered := (claims (·.filter fun k => k.position != c.position) s).trans
    (grant c.serial c.position i _)
  unfold State.finishClaim
  dsimp only
  split
  · exact answered.trans (answerInUse _ _)
  · exact answered.trans (retryHeld _ _ _)

theorem resolveClaim (p : Pos) (i : Option Image) (s : State) : Moves s (s.resolveClaim p i) := by
  unfold State.resolveClaim
  split
  · exact refl s
  · split
    · exact finishClaim _ _ s
    · split
      · exact (onClaim p _ s).trans (read _ _ (by nofun))
      · exact finishClaim _ _ s

theorem noteLive (x : Slot) (c : Copy) (g : Gen) (s : State) : Moves s (s.noteLive x c g) :=
  note x _ s fun _ => ⟨rfl, rfl, rfl⟩

theorem foundUnreadable (x : Slot) (s : State) : Moves s (s.foundUnreadable x) :=
  (note x (fun e => { e with condition := if e.condition = .good then .damaged else e.condition }) s
    fun _ => ⟨rfl, rfl, rfl⟩).trans (acts (.raiseStoreFault x none _))

theorem offerRefresh (x : Slot) (s : State) : Moves s (s.offerRefresh x) := by
  unfold State.offerRefresh
  repeat' split
  · exact refl s
  · exact refl s
  · exact coalesce _ _ _ s
  · exact refl s
  · exact refl s
  · exact offer _ _ _ s
  · exact refl s

/-- The note moves and a refresh is offered where the read asks for them (log 14). -/
theorem noteAndRefresh (x : Slot) (c : Copy) (g : Gen) (note refresh : Bool) (s : State) :
    Moves s (if refresh then (if note then s.noteLive x c g else s).offerRefresh x
      else if note then s.noteLive x c g else s) := by
  have noted : Moves s (if note then s.noteLive x c g else s) := by
    split
    · exact noteLive x c g s
    · exact refl s
  split
  · exact noted.trans (offerRefresh x _)
  · exact noted

theorem claimRead (p : Pos) (c : Copy) (o : ReadOutcome (Image × Gen)) (s : State) : Moves s (s.claimRead p c o) := by
  unfold State.claimRead
  split
  · exact refl s
  · next k _ =>
    split
    · exact (noteAndRefresh k.slot c _ k.second o.isCorrected s).trans (resolveClaim p _ _)
    · split
      · exact (foundUnreadable _ s).trans (resolveClaim p _ _)
      · exact (onClaim p _ s).trans (read _ _ (by nofun))

/-! ### Reports -/

theorem onCtx (p : Pos) (f : Position → Position) (s : State) (h : (f (s.ctx p)).claim = (s.ctx p).claim) :
    Moves s (s.onCtx p f) := .acts (.onCtx p f s h)

theorem endClaim (p : Pos) (blocked : Bool) (s : State) : Moves s (s.endClaim p blocked) := .acts (.endClaim p _ s)

theorem cardLeft (p : Pos) (r : Report) (s : State) : Moves s (s.cardLeft p r) := .acts (.cardLeft p r s)

theorem readingReport (p : Pos) (r : Report) (x : Option Serial) (s : State) : Moves s (s.readingReport p r x) := by
  unfold State.readingReport
  repeat' split
  · exact cardLeft p r s
  · exact sendClaim p _ s
  · exact refl s

theorem waitingReport (p : Pos) (r : Report) (x : Option Serial) (s : State) : Moves s (s.waitingReport p r x) := by
  unfold State.waitingReport
  repeat' split
  · exact cardLeft p r s
  · exact sendClaim p _ s
  · exact sendClaim p _ s
  · exact refl s

theorem heldReport (p : Pos) (r : Report) (x : Option Serial) (s : State) : Moves s (s.heldReport p r x) := by
  unfold State.heldReport
  repeat' split
  · exact (endClaim p _ s).trans (cardLeft p r _)
  · exact (endClaim p _ s).trans (sendClaim p _ _)
  · exact refl s
  · exact .acts (.answerEvent p _ _ s)
  · exact refl s
  · exact .acts (.answerEvent p _ _ s)

theorem refusedReport (p : Pos) (r : Report) (x : Option Serial) (s : State) : Moves s (s.refusedReport p r x) := by
  unfold State.refusedReport
  repeat' split
  · exact (onCtx p _ s rfl).trans (cardLeft p r _)
  · exact refl s
  · exact (onCtx p _ s rfl).trans (sendClaim p _ _)
  · exact refl s
  · exact .acts (.unpaidTest p _ s)

theorem meteredRest (p : Pos) (r : Report) (x : Option Serial) (s : State) : Moves s (s.meteredRest p r x) := by
  unfold State.meteredRest
  repeat' split
  · exact (acts (.hangUp p s)).trans (heldReport p r x _)
  · exact (endClaim p _ s).trans (acts (.enterCut p _ _))
  · exact refl s

theorem graceCard (p : Pos) (r : Report) (x : Option Serial) (s : State) : Moves s (s.graceCard p r x) := by
  unfold State.graceCard
  dsimp only
  split
  · repeat' split
    · exact (endClaim p _ s).trans (acts (.setSub p _ _))
    · exact (endClaim p _ s).trans (sendClaim p _ _)
    · exact refl s
    · exact refl s
  · split
    · exact .acts (.setSub p _ s)
    · exact refl s
  · repeat' split
    · exact .acts (.setSub p _ s)
    · exact sendClaim p _ s
    · exact refl s
  · repeat' split
    · exact onCtx p _ s rfl
    · exact refl s
    · exact (onCtx p _ s rfl).trans (sendClaim p _ _)
    · exact refl s
  · repeat' split
    · exact onCtx p _ s rfl
    · exact onCtx p _ s rfl
    · exact sendClaim p _ s
    · exact refl s
  · exact refl s

theorem graceRest (p : Pos) (r : Report) (x : Option Serial) (s : State) : Moves s (s.graceRest p r x) := by
  unfold State.graceRest
  dsimp only
  repeat' split
  · exact graceCard p r x s
  · exact (graceCard p r x s).trans (acts (.graceEnd p _))
  · exact (graceCard p r x s).trans (acts (.hangUp p _))
  · exact graceCard p r x s

theorem reportByState (p : Pos) (r : Report) (x : Option Serial) (s : State) : Moves s (s.reportByState p r x) := by
  unfold State.reportByState
  split
  · exact refl s
  · exact refl s
  · exact .acts (.vacantReport p r s)
  · exact readingReport p r x s
  · exact .acts (.checkingReport p r x s)
  · exact waitingReport p r x s
  · exact heldReport p r x s
  · exact refusedReport p r x s
  · exact meteredRest p r x s
  · exact graceRest p r x s
  · exact .acts (.cutReport p r x s)

theorem validReport (p : Pos) (r : Report) (s : State) : Moves s (s.validReport p r) := by
  unfold State.validReport
  split
  · exact refl s
  · exact (((onCtx p _ s (by dsimp only; split <;> rfl)).trans (acts (.pulses p _ _))).trans (onCtx p _ _ rfl)).trans
      (reportByState p r _ _)

theorem silentCycle (p : Pos) (s : State) : Moves s (s.silentCycle p) := by
  unfold State.silentCycle
  dsimp only
  repeat' split
  · exact refl s
  · exact (onCtx p _ s rfl).trans (acts (.enterLost p _))
  · exact onCtx p _ s rfl

theorem handOn (p : Pos) (c : ReportClass × Option (BitVec 38)) (s : State) : Moves s (s.handOn p c) := by
  unfold State.handOn
  dsimp only
  split
  · exact (onCtx p _ s rfl).trans (validReport p _ _)
  · exact (onCtx p _ s rfl).trans (silentCycle p _)

end Moves

end Sys2Proof.Machine
end

section
/-!
PROOFS. The array under the operations of claims and calls (O60): a step in flight that a read suspends is all that
changes there, and a write touches its target only.
-/

namespace Sys2Proof.Machine

/-! ### The answer to a claim, taken apart -/

/-- The completion of a claim grants an unclaimed record for which there is room, or changes flags at most. -/
theorem State.completeClaim_cases (x : Serial) (p : Pos) (i : Option Image) (s : State) :
    (∃ e j, s.lookup x = some e ∧ e.claimedBy = none ∧ s.hasRoom = true ∧ s.completeClaim x p i =
      (s.onEntry e.slot fun e => { e with claimedBy := some p }, .accepted e.slot e.cls j)) ∨
    (s.completeClaim x p i).2.isAccepted = false ∧ Acts s (s.completeClaim x p i).1 := by
  unfold State.completeClaim
  split
  · exact .inr ⟨rfl, .refl s⟩
  · next e found =>
    split
    · exact .inr ⟨rfl, .refl s⟩
    split
    · exact .inr ⟨rfl, .refl s⟩
    split
    · exact .inr ⟨rfl, .refl s⟩
    next unclaimed =>
    split
    · exact .inr ⟨rfl, .refl s⟩
    split
    · exact .inr ⟨rfl, .refl s⟩
    split
    · exact .inr ⟨rfl, Acts.raiseHotCard x p s⟩
    split
    · exact .inr ⟨rfl, .refl s⟩
    split
    · exact .inr ⟨rfl, .refl s⟩
    split
    · exact .inr ⟨rfl, Acts.raiseAdmission s⟩
    next room =>
    exact .inl ⟨e, _, found, by simpa using unclaimed, by simpa using room, rfl⟩

/-- What a position does with a card that is accepted: nothing, where no claim is outstanding; an abandoned claim's card
is settled and released; and else its context changes, the claim in it being the one before or one of the card, and the
position acts on. -/
theorem State.takeAnswer_accepted (p : Pos) (x : Slot) (cls : CardClass) (i : Image) (s : State) :
    s.takeAnswer p (.accepted x cls i) = s ∨
    (∃ j, s.takeAnswer p (.accepted x cls i) =
      ((s.onCtx p fun c => { c with outstanding := none }).offerSettlement x j).release x) ∨
    ∃ f, ((f (s.ctx p)).claim = (s.ctx p).claim ∨ ∃ k, (f (s.ctx p)).claim = some k ∧ k.slot = x) ∧
      Acts (s.onCtx p f) (s.takeAnswer p (.accepted x cls i)) := by
  have twice : ∀ f g : Position → Position, (s.onCtx p f).onCtx p g = s.onCtx p fun c => g (f c).settled := by
    intro f g
    simp [State.onCtx, State.ctx, Position.settled]
  unfold State.takeAnswer
  split
  · exact .inl rfl
  · next o _ =>
    dsimp only
    split
    · exact .inr (.inl ⟨_, rfl⟩)
    · refine .inr (.inr ?_)
      cases (s.ctx p).state with
      | checking =>
        refine ⟨_, ?_, by dsimp only; rw [twice]; exact .refl _⟩
        exact .inr ⟨_, rfl, rfl⟩
      | grace =>
        refine ⟨_, ?_, by dsimp only; rw [twice]; exact Acts.gracePayment p _⟩
        exact .inr ⟨_, rfl, rfl⟩
      | cut =>
        refine ⟨_, ?_, by dsimp only; rw [twice]; exact .refl _⟩
        exact .inr ⟨_, rfl, rfl⟩
      | off | vacant | reading | waiting | held | refused | metered | lost => exact ⟨_, .inl rfl, .refl _⟩

/-! ### Operations that ask for no read -/

/-- The array and the engine stay, but for the entries that wait. -/
structure Quiet (s t : State) : Prop where
  store : t.store = s.store
  engine : t.engine = { s.engine with waiting := t.engine.waiting }

namespace Quiet

theorem refl (s : State) : Quiet s s := ⟨rfl, rfl⟩

theorem trans {s t u : State} (h : Quiet s t) (k : Quiet t u) : Quiet s u :=
  ⟨k.store.trans h.store, by rw [k.engine, h.engine]⟩

theorem onCtx (p : Pos) (f : Position → Position) (s : State) : Quiet s (s.onCtx p f) := ⟨rfl, rfl⟩

theorem release (x : Slot) (s : State) : Quiet s (s.release x) := ⟨rfl, rfl⟩

theorem joinQueue (e : QueueEntry) (s : State) : Quiet s (s.joinQueue e) := ⟨rfl, rfl⟩

theorem coalesce (x : Slot) (i : Image) (origin : Origin) (s : State) : Quiet s (s.coalesce x i origin) := ⟨rfl, rfl⟩

theorem offerSettlement (x : Slot) (i : Image) (s : State) : Quiet s (s.offerSettlement x i) := by
  unfold State.offerSettlement
  split
  · exact coalesce x i _ s
  · exact joinQueue _ s

theorem offerValue_getD (x : Slot) (i : Image) (origin : Origin) (s : State) :
    Quiet s ((s.offerValue x i origin).getD s) := by
  unfold State.offerValue
  repeat' split
  · exact coalesce x i _ s
  · exact joinQueue _ s
  · exact refl s

theorem endClaim (p : Pos) (blocked : Bool) (s : State) : Quiet s (s.endClaim p blocked) := by
  unfold State.endClaim
  split
  · exact refl s
  · next k _ => exact ((offerSettlement k.slot _ s).trans (release _ _)).trans (onCtx p _ _)

theorem checkpoint (p : Pos) (s : State) : Quiet s (s.checkpoint p) := by
  unfold State.checkpoint
  split
  · exact refl s
  · next k _ => exact (offerSettlement k.slot _ s).trans (onCtx p _ _)

theorem of_acts {s t : State} (h : Acts s t) : Quiet s t := by
  induction h with
  | refl s => exact refl s
  | trans _ _ ih ik => exact ih.trans ik
  | onCtx p f s _ => exact ⟨rfl, rfl⟩
  | raise g f s => exact ⟨rfl, rfl⟩
  | count t s => exact ⟨rfl, rfl⟩
  | endClaim p b s => exact endClaim p b s
  | checkpoint p s => exact checkpoint p s

theorem takeAnswer (p : Pos) (a : ClaimAnswer) (s : State) : Quiet s (s.takeAnswer p a) := by
  cases a with
  | accepted x cls i =>
    obtain h | ⟨j, h⟩ | ⟨f, -, h⟩ := s.takeAnswer_accepted p x cls i
    · rw [h]; exact refl s
    · rw [h]; exact ((onCtx p _ s).trans (offerSettlement x j _)).trans (release x _)
    · exact (onCtx p f s).trans (of_acts h)
  | refused r => exact of_acts (Acts.takeAnswer_other p rfl s)
  | wait => exact of_acts (Acts.takeAnswer_other p rfl s)

theorem completeClaim (x : Serial) (p : Pos) (i : Option Image) (s : State) : Quiet s (s.completeClaim x p i).1 := by
  obtain ⟨e, j, -, -, -, h⟩ | ⟨-, h⟩ := s.completeClaim_cases x p i
  · rw [h]; exact ⟨rfl, rfl⟩
  · exact of_acts h

end Quiet

/-! ### A write touches its target only -/

/-- Wherever a VALUE write stands, the other copy and the identity are as they were (R10, R11). -/
theorem FlightStep.cells_writeValue (c : Copy) (g : Gen) (p : Progress) (r : Record) :
    ((FlightStep.writeValue c g).cells p r).copy c.other = r.copy c.other ∧
      ((FlightStep.writeValue c g).cells p r).identity = r.identity := by
  cases c <;> cases p <;> exact ⟨rfl, rfl⟩

theorem FlightStep.torn_writeValue (c : Copy) (g : Gen) (cut : Cut) (r : Record) :
    ((FlightStep.writeValue c g).torn cut r).copy c.other = r.copy c.other ∧
      ((FlightStep.writeValue c g).torn cut r).identity = r.identity := by
  cases c <;> exact ⟨rfl, rfl⟩

/-- Of the array, the slot of the entry in flight alone may have changed, and a VALUE write has touched its target
alone; the entry stays in flight, at its step. -/
structure Spares (s t : State) : Prop where
  flight : t.engine.flight.map (fun f => (f.entry, f.step)) = s.engine.flight.map (fun f => (f.entry, f.step))
  store : storeWf s.store = true → storeWf t.store = true
  others : storeWf s.store = true → ∀ x, (∀ f ∈ s.engine.flight, f.entry.slot ≠ x) → t.record x = s.record x
  value : storeWf s.store = true → ∀ f ∈ s.engine.flight, ∀ c g, f.step = .writeValue c g →
    (t.record f.entry.slot).copy c.other = (s.record f.entry.slot).copy c.other ∧
      (t.record f.entry.slot).identity = (s.record f.entry.slot).identity

namespace Spares

variable {s t u : State}

theorem of_store (store : t.store = s.store)
    (flight : t.engine.flight.map (fun f => (f.entry, f.step)) = s.engine.flight.map (fun f => (f.entry, f.step))) :
    Spares s t where
  flight := flight
  store := fun w => store ▸ w
  others := fun _ x _ => by rw [State.record, store]; rfl
  value := fun _ f _ c g _ => by rw [State.record, store]; exact ⟨rfl, rfl⟩

theorem refl (s : State) : Spares s s := of_store rfl rfl

theorem of_quiet (h : Quiet s t) : Spares s t := of_store h.store (by rw [h.engine])

theorem trans (h : Spares s t) (k : Spares t u) : Spares s u where
  flight := k.flight.trans h.flight
  store := k.store ∘ h.store
  others := fun w x hx => (k.others (h.store w) x (Calls.slots_of_flight h.flight hx)).trans (h.others w x hx)
  value := fun w f hf c g step => by
    have kept := h.flight
    rw [hf] at kept
    obtain ⟨f', hf', same⟩ := Option.map_eq_some_iff.1 kept
    simp only [Prod.mk.injEq] at same
    obtain ⟨entry, step'⟩ := same
    have later := k.value (h.store w) f' hf' c g (step'.trans step)
    rw [entry] at later
    exact ⟨later.1.trans (h.value w f hf c g step).1, later.2.trans (h.value w f hf c g step).2⟩

/-- The slot of the entry in flight changes, but a VALUE write's other copy and identity do not. -/
theorem onRecord {f : Flight} (flying : s.engine.flight = some f) {g : Record → Record}
    (value : ∀ c n, f.step = .writeValue c n → ∀ r, (g r).copy c.other = r.copy c.other ∧ (g r).identity = r.identity) :
    Spares s (s.onRecord f.entry.slot g) where
  flight := rfl
  store := State.storeWf_onRecord _ _ s
  others := fun w x hx => by
    rw [State.record_onRecord _ _ _ _ w, if_neg (hx f flying)]
  value := fun w f' hf' c n step => by
    rw [flying] at hf'
    cases hf'
    rw [State.record_onRecord _ _ _ _ w, if_pos rfl]
    exact value c n step _

theorem standAt (p : Progress) (s : State) : Spares s (s.standAt p) := by
  unfold State.standAt
  split
  · exact refl s
  · next f flying =>
    dsimp only
    split
    · exact refl s
    · refine trans (onRecord flying fun c n step r => ?_) (of_store rfl (by simp [flying, State.onRecord]))
      rw [step]
      exact FlightStep.cells_writeValue c n _ r

theorem suspend (s : State) : Spares s s.suspend := by
  unfold State.suspend
  split
  · exact refl s
  · exact (standAt _ s).trans (of_store rfl rfl)

theorem requestRead (r : ReadRequest) (s : State) : Spares s (s.requestRead r) := by
  unfold State.requestRead
  split
  · exact of_store rfl rfl
  · exact (suspend s).trans (of_store rfl rfl)

/-- Claims and calls leave the array to the engine. -/
theorem of_moves {s t : State} (h : Moves s t) : Spares s t := by
  induction h with
  | acts h => exact of_quiet (.of_acts h)
  | trans _ _ ih ik => exact ih.trans ik
  | grant x p i s => exact of_quiet ((Quiet.completeClaim x p i s).trans (Quiet.takeAnswer p _ _))
  | claims f s => exact of_store rfl rfl
  | note x f s _ => exact of_store rfl rfl
  | offer x i origin s => exact of_quiet (.offerValue_getD x i origin s)
  | coalesce x i origin s => exact of_quiet (.coalesce x i origin s)
  | read r s _ => exact requestRead r s

end Spares

end Sys2Proof.Machine
end

section
/-!
PROOFS. The commands taken apart: `Runs` chains what a command does to one component with what claims and calls do. All
commands but those of `reshapes` are made of it.
-/

namespace Sys2Proof.Machine

/-- What a command does, but for the resets, the start-up, the steps of the store and the actions that place a slot.
Where `calls` fails it asks for no read, grants no claim and starts no line. -/
inductive Runs (calls : Prop) : State → State → Prop
  | acts {s t : State} : Acts s t → Runs calls s t
  | trans {s t u : State} : Runs calls s t → Runs calls t u → Runs calls s u
  | moves {s t : State} : calls → Moves s t → Runs calls s t
  | port (f : Port → Port) (s : State) : (f s.port).mode = s.port.mode → Runs calls s (s.onPort f)
  | tariff (f : Tariff → Tariff) (s : State) : Runs calls s (s.onTariff f)
  | settings (f : Settings → Settings) (s : State) : Runs calls s (s.onSettings f)
  | attention (f : Attention → Attention) (s : State) : Runs calls s (s.onAttention f)
  | pwrlow (b : Bool) (s : State) : Runs calls s (s.onPins fun p => { p with pwrlow := b })
  | engine (n : Nat) (locks : BitVec 16) (s : State) :
      Runs calls s (s.onEngine fun e => { e with corrected := n, locks := locks })
  | line (l : LineIx) (f : Line → Line) (s : State) : ((f (s.line l)).driven = true → (s.line l).driven = true) →
      Runs calls s (s.onLine l f)
  | drive (l : LineIx) (f : Line → Line) (s : State) : calls → Runs calls s (s.onLine l f)

/-- The commands that reset the part, start it up or drain it, that write the array, or that place a slot. -/
def reshapes : Instr → Bool
  | .powerOn _ | .powerFailure _ | .resetnAsserted _ | .resetnDeasserted | .supplyValid => true
  | .resetEnter | .enterInReset | .resetLeave => true
  | .issue | .retire | .eraseSlot => true
  | .storeReadComplete _ | .entryStart | .valueWriteComplete _ | .issueStepComplete _ | .eraseComplete _ => true
  | _ => false

/-- The commands that may grant a claim, ask for a read or start a line. -/
def mayCall : Instr → Bool
  | .credit | .setExpiry | .block | .unblock | .queryCard | .querySlot | .enableLine _ | .slotWindowClose _ => true
  | _ => false

namespace Runs

variable {calls : Prop}

theorem refl (s : State) : Runs calls s s := .acts (.refl s)

theorem onCtx (p : Pos) (f : Position → Position) (s : State) (h : (f (s.ctx p)).claim = (s.ctx p).claim) :
    Runs calls s (s.onCtx p f) := .acts (.onCtx p f s h)

/-! ### The taking of a frame -/

theorem answer (code : ReplyCode) (data : Word) (s : State) : Runs calls s (s.answer code data) := port _ s rfl

theorem answerLatched (code : ReplyCode) (data : Word) (s : State) : Runs calls s (s.answerLatched code data) :=
  (answer code data s).trans (port _ _ rfl)

theorem answerAction (kind : ActionKind) (code : ReplyCode) (data : Word) (s : State) :
    Runs calls s (s.answerAction kind code data) :=
  (answer code data s).trans (port _ _ rfl)

theorem load (words : List Word) (s : State) : Runs calls s (s.load words) := port _ s rfl

theorem endTransfer (addressed : Bool) (s : State) : Runs calls s (s.endTransfer addressed) := port _ s rfl

theorem takeFrame {act : State → State} (h : ∀ s, Runs calls s (act s)) (s : State) :
    Runs calls s (takeFrame act s) := by
  unfold Machine.takeFrame
  dsimp only
  repeat' split
  · exact refl s
  · exact (endTransfer true s).trans (h _)
  · exact endTransfer true s

theorem whenRunning {act : State → State} (h : ∀ s, Runs calls s (act s)) (s : State) :
    Runs calls s (whenRunning act s) := by
  unfold Machine.whenRunning
  split
  · exact h s
  · exact answer _ _ s

theorem latched {act : State → State} (h : ∀ s, Runs calls s (act s)) (s : State) :
    Runs calls s (latched act s) := by
  unfold Machine.latched
  repeat' split
  · exact answerLatched _ _ s
  · exact h s
  · exact answerLatched _ _ s

theorem unlessReset {act : State → State} (h : ∀ s, Runs calls s (act s)) (s : State) :
    Runs calls s (unlessReset act s) := by
  unfold Machine.unlessReset
  split
  · exact refl s
  · exact h s

/-! ### The card actions -/

theorem await (c : calls) (a : HostAction) (g : GranuleName) (s : State) : Runs calls s (s.await a g) :=
  ((answer .noReply 1 s).trans (port (fun p => { p with result := .working a }) _ rfl)).trans
    (moves c (.read _ _ (by nofun)))

theorem applyAction (c : calls) (kind : ActionKind) (x : Slot) (i : Image) (s : State) :
    Runs calls s (s.applyAction kind x i) := by
  unfold State.applyAction
  split
  · exact answerAction _ _ _ s
  · split
    · exact answerAction _ _ _ s
    · next image _ _ _ t offered =>
      have joined := Moves.offer x image .host s
      rw [offered] at joined
      exact (moves c joined).trans (answerAction _ _ _ _)

theorem fromStepSix (c : calls) (kind : ActionKind) (e : DirEntry) (r : ActionRead) (s : State) :
    Runs calls s (s.fromStepSix kind e r) := by
  unfold State.fromStepSix
  split
  · exact answerAction _ _ _ s
  · split
    · exact (acts (.blockThrough _ s)).trans (answerAction _ _ _ _)
    · repeat' split
      · exact answerAction _ _ _ s
      · exact answerAction _ _ _ s
      · exact answerAction _ _ _ s
      · exact applyAction c _ _ _ s
      · exact applyAction c _ _ _ s
      · exact await c _ _ s

theorem onUnlockedCard {act : DirEntry → State → State} (h : ∀ e s, Runs calls s (act e s)) (s : State) :
    Runs calls s (s.onUnlockedCard act) := by
  unfold State.onUnlockedCard
  repeat' split
  · exact answerLatched _ _ s
  · exact answerLatched _ _ s
  · exact h _ s

theorem finishQuery (kind : ActionKind) (e : DirEntry) (identity : Option Identity) (image : Option Image)
    (s : State) : Runs calls s (s.finishQuery kind e identity image) := by
  unfold State.finishQuery
  dsimp only
  split
  · exact (load _ s).trans (answerAction _ _ _ _)
  · exact (load _ s).trans (answerAction _ _ _ _)

theorem queryValue (c : calls) (kind : ActionKind) (e : DirEntry) (identity : Option Identity) (s : State) :
    Runs calls s (s.queryValue kind e identity) := by
  unfold State.queryValue
  split
  · exact finishQuery _ _ _ _ s
  · exact finishQuery _ _ _ _ s
  · exact await c _ _ s

theorem startQuery (c : calls) (kind : ActionKind) (e : DirEntry) (s : State) :
    Runs calls s (s.startQuery kind e) := by
  unfold State.startQuery
  split
  · exact finishQuery _ _ _ _ s
  · exact await c _ _ s

theorem actionResolved (c : calls) (a : HostAction) (identity : Option Identity) (image : Option Image) (s : State) :
    Runs calls s (s.actionResolved a identity image) := by
  unfold State.actionResolved
  split
  · exact refl s
  · split
    · split
      · exact queryValue c _ _ _ s
      · exact finishQuery _ _ _ _ s
    · split
      · exact queryValue c _ _ _ s
      · exact finishQuery _ _ _ _ s
    · exact fromStepSix c _ _ _ s

theorem actionIdentity (c : calls) (o : ReadOutcome Identity) (s : State) : Runs calls s (s.actionIdentity o) := by
  unfold State.actionIdentity
  split
  · next a _ =>
    have read : Runs calls s (if o.valid.isNone then s.foundUnreadable a.slot else s) := by
      split
      · exact moves c (.foundUnreadable _ s)
      · exact refl s
    dsimp only
    split
    · exact read
    · exact read.trans (queryValue c _ _ _ _)
  · exact refl s

/-- A working action's read of a value copy, first or second. -/
theorem actionRead (c : calls) (a : HostAction) (copy : Copy) (o : ReadOutcome (Image × Gen)) (second : Bool)
    (identity : Option Identity) (s : State) : Runs calls s (match o.valid with
      | some (i, g) =>
        (if o.isCorrected then (if second then s.noteLive a.slot copy g else s).offerRefresh a.slot
          else if second then s.noteLive a.slot copy g else s).actionResolved a identity (some i)
      | none =>
        if second then (s.foundUnreadable a.slot).actionResolved a identity none
        else s.await { a with stage := .other identity } copy.other.granule) := by
  split
  · exact (moves c (.noteAndRefresh _ _ _ second o.isCorrected s)).trans (actionResolved c _ _ _ _)
  · split
    · exact (moves c (.foundUnreadable _ s)).trans (actionResolved c _ _ _ _)
    · exact await c _ _ s

theorem actionValue (c : calls) (copy : Copy) (o : ReadOutcome (Image × Gen)) (s : State) :
    Runs calls s (s.actionValue copy o) := by
  unfold State.actionValue
  split
  · next a _ =>
    dsimp only
    split
    · exact refl s
    · exact actionRead c a copy o false _ s
    · exact actionRead c a copy o true _ s
  · exact refl s

theorem countCorrected (corrected : Bool) (s : State) : Runs calls s (s.countCorrected corrected) := by
  unfold State.countCorrected
  cases corrected
  · exact refl s
  · exact engine (min 65535 (s.engine.corrected + 1)) s.engine.locks s

theorem setLock (region : BitVec 20) (locked : Bool) (s : State) : Runs calls s (s.setLock region locked) := by
  unfold State.setLock
  split
  · exact answerLatched _ _ s
  · next r _ =>
    exact (engine s.engine.corrected (withLock s.engine.locks r locked) s).trans (answerLatched _ _ _)

/-! ### The lines and positions -/

theorem driven_of_state {f : Line → Line} {l : Line} (h : (f l).state = l.state) :
    (f l).driven = true → l.driven = true := by
  unfold Line.driven
  rw [h]
  exact id

theorem enableLine (c : calls) (l : LineIx) (s : State) : Runs calls s (s.enableLine l) := by
  unfold State.enableLine
  split
  · exact refl s
  · exact (acts (Acts.forPositions _ Acts.preparePosition s)).trans (drive l _ _ c)

theorem disableLine (l : LineIx) (s : State) : Runs calls s (s.disableLine l) := by
  have stop : Runs calls s (s.onLine l (Line.stop .off)) := line l _ s (by simp [Line.stop, Line.driven])
  unfold State.disableLine
  split
  · exact refl s
  · exact stop.trans (acts (Acts.forPositions _ Acts.lostToOff _))
  · exact stop.trans (acts (Acts.forPositions _ Acts.enterOff _))
  · exact stop.trans (acts (Acts.forPositions _ Acts.enterOff _))

theorem lineFault (l : LineIx) (s : State) : Runs calls s (s.lineFault l) := by
  unfold State.lineFault
  split
  · exact ((line l _ s (by simp [Line.stop, Line.driven])).trans
      (acts (Acts.forPositions _ Acts.enterLost _))).trans (acts (.raise _ _ _))
  · exact refl s

theorem cycleStart (l : LineIx) (s : State) : Runs calls s (s.cycleStart l) := by
  unfold State.cycleStart
  dsimp only
  split
  · next due =>
    refine line l _ s fun _ => ?_
    unfold Line.cycleDue at due
    exact (Bool.and_eq_true_iff.1 due).1
  · exact refl s

theorem windowClose (c : calls) (l : LineIx) (s : State) : Runs calls s (s.windowClose l) := by
  unfold State.windowClose
  dsimp only
  split
  · next k _ =>
    split
    · refine trans (t := if (s.line l).state = .running then
        s.handOn (posOf l k) (classify (s.line l).cycle (posOf l k) k (s.line l).record) else s) ?_
        (line l _ _ (driven_of_state (by rw [Line.afterClose_eq_closed, Line.closed_state])))
      split
      · exact moves c (.handOn _ _ s)
      · exact refl s
    · exact refl s
  · exact refl s

theorem enablePosition (p : Pos) (s : State) : Runs calls s (s.enablePosition p) := by
  unfold State.enablePosition
  dsimp only
  split
  · exact (onCtx p _ s rfl).trans (acts (.leaveOff p _))
  · exact onCtx p _ s rfl

theorem disablePosition (p : Pos) (s : State) : Runs calls s (s.disablePosition p) :=
  (onCtx p _ s rfl).trans (acts (.enterOff p _))

theorem onLineOperand (line : BitVec 3) {act : LineIx → State → State} (h : ∀ l s, Runs calls s (act l s))
    (s : State) : Runs calls s (match lineOperand line with
      | none => s.answer .range 0
      | some l => act l s) := by
  split
  · exact answer _ _ s
  · exact h _ s

theorem onPositionOperand (op : BitVec 20) {act : Pos → State → State} (h : ∀ p s, Runs calls s (act p s))
    (s : State) : Runs calls s (match positionOperand op with
      | none => s.answer .range 0
      | some p => act p s) := by
  split
  · exact answer _ _ s
  · exact h _ s

theorem onRange (lo hi : Nat) (op : BitVec 20) (f : Nat → Settings → Settings) (s : State) :
    Runs calls s (match inRange lo hi op with
      | none => s.answer .range 0
      | some n => (s.onSettings (f n)).answer .ok (toWord n)) := by
  split
  · exact answer _ _ s
  · exact (settings _ s).trans (answer _ _ _)

theorem stage (f : Staging → Staging) (data : Word) (s : State) : Runs calls s (s.stage f data) :=
  (port _ s rfl).trans (answer _ _ _)

/-- A frame that changes the tariff unit, and is answered. -/
theorem tariffFrame (f : Tariff → Tariff) (code : ReplyCode) (data : Word) (s : State) :
    Runs calls s ((s.onTariff f).answer code data) := (tariff f s).trans (answer code data _)

theorem tick (s : State) : Runs calls s s.tick :=
  unlessReset (fun s => (tariff _ s).trans
    (acts (Acts.forPositions _ (fun p t => .onCtx p _ t rfl) _))) s

end Runs

end Sys2Proof.Machine
end

section
/-!
PROOFS. The array changes only where the engine is at work (O60): every command that does not reshape the part leaves
it to the step in flight, and each of the others touches the one slot that it works on.
-/

namespace Sys2Proof.Machine

namespace Runs

/-- A command that does not reshape the part is made of the updates of `Runs`. -/
theorem of_exec {c : Instr} (h : reshapes c = false) (s : State) :
    ∃ t, exec c s = .next t ∧ Runs (mayCall c = true) s t := by
  cases c with
  | powerOn _ | powerFailure _ | resetnAsserted _ | resetnDeasserted | supplyValid => nomatch h
  | resetEnter | enterInReset | resetLeave => nomatch h
  | issue | retire | eraseSlot => nomatch h
  | storeReadComplete _ | entryStart | valueWriteComplete _ | issueStepComplete _ | eraseComplete _ => nomatch h
  | pwrlowAsserted =>
    refine ⟨_, rfl, ?_⟩
    split
    · exact refl s
    · exact (pwrlow true s).trans (acts (Acts.forPositions _ Acts.checkpoint _))
  | pwrlowDeasserted => exact ⟨_, rfl, pwrlow false s⟩
  | transferIgnored => exact ⟨_, rfl, unlessReset (fun s => port _ s rfl) s⟩
  | frameForOtherUnit => exact ⟨_, rfl, unlessReset (endTransfer false) s⟩
  | badKind => exact ⟨_, rfl, takeFrame (answer _ _) s⟩
  | readStatus => exact ⟨_, rfl, takeFrame (fun s => (answer _ _ s).trans (port _ _ rfl)) s⟩
  | readBuffer =>
    refine ⟨_, rfl, takeFrame (fun s => ?_) s⟩
    split
    · exact (answer _ _ s).trans (port _ _ rfl)
    · exact answer _ _ s
  | enableWrite => exact ⟨_, rfl, takeFrame (whenRunning fun s => (answer _ _ s).trans (port _ _ rfl)) s⟩
  | serialHigh value => exact ⟨_, rfl, takeFrame (stage _ _) s⟩
  | serialLow value => exact ⟨_, rfl, takeFrame (stage _ _) s⟩
  | stageValue value => exact ⟨_, rfl, takeFrame (stage _ _) s⟩
  | stageExpiry value => exact ⟨_, rfl, takeFrame (stage _ _) s⟩
  | stageClass operand =>
    refine ⟨_, rfl, takeFrame (fun s => ?_) s⟩
    split
    · exact answer _ _ s
    · exact stage _ _ s
  | stageSlot operand =>
    refine ⟨_, rfl, takeFrame (fun s => ?_) s⟩
    split
    · exact answer _ _ s
    · exact stage _ _ s
  | stageTariffA zone band charge => exact ⟨_, rfl, takeFrame (stage _ _) s⟩
  | stageTariffB value => exact ⟨_, rfl, takeFrame (stage _ _) s⟩
  | stageTariffC standard concession => exact ⟨_, rfl, takeFrame (stage _ _) s⟩
  | credit =>
    refine ⟨_, rfl, takeFrame (latched fun s => ?_) s⟩
    split
    · exact answerLatched _ _ s
    · exact onUnlockedCard (fun e => fromStepSix rfl _ e _) s
  | setExpiry => exact ⟨_, rfl, takeFrame (latched (onUnlockedCard fun e => fromStepSix rfl _ e _)) s⟩
  | block => exact ⟨_, rfl, takeFrame (latched (onUnlockedCard fun e => fromStepSix rfl _ e _)) s⟩
  | unblock => exact ⟨_, rfl, takeFrame (latched (onUnlockedCard fun e => fromStepSix rfl _ e _)) s⟩
  | queryCard =>
    refine ⟨_, rfl, takeFrame (whenRunning fun s => ?_) s⟩
    split
    · exact answer _ _ s
    · exact startQuery rfl _ _ s
  | querySlot =>
    refine ⟨_, rfl, takeFrame (whenRunning fun s => ?_) s⟩
    dsimp only
    split
    · exact (load _ s).trans (answer _ _ _)
    · exact startQuery rfl _ _ s
  | unlockRegion region => exact ⟨_, rfl, takeFrame (latched (setLock region false)) s⟩
  | lockRegion region => exact ⟨_, rfl, takeFrame (latched (setLock region true)) s⟩
  | writeTariff =>
    refine ⟨_, rfl, takeFrame (fun s => ?_) s⟩
    dsimp only
    repeat' split
    · exact answer _ _ s
    · exact answer _ _ s
    · exact tariffFrame _ _ _ s
  | barZone zone band =>
    refine ⟨_, rfl, takeFrame (fun s => ?_) s⟩
    split
    · exact answer _ _ s
    · exact tariffFrame _ _ _ s
  | writeBand minute band =>
    refine ⟨_, rfl, takeFrame (fun s => ?_) s⟩
    dsimp only
    repeat' split
    · exact answer _ _ s
    · exact answer _ _ s
    · exact tariffFrame _ _ _ s
  | clearBand minute =>
    refine ⟨_, rfl, takeFrame (fun s => ?_) s⟩
    split
    · exact answer _ _ s
    · exact tariffFrame _ _ _ s
  | setDay day => exact ⟨_, rfl, takeFrame (tariffFrame _ _ _) s⟩
  | setTime second =>
    refine ⟨_, rfl, takeFrame (fun s => ?_) s⟩
    split
    · exact answer _ _ s
    · exact tariffFrame _ _ _ s
  | collectTakings =>
    exact ⟨_, rfl, takeFrame (whenRunning fun s => (load _ s).trans (tariffFrame _ _ _ _)) s⟩
  | configureLinePeriod n period =>
    refine ⟨_, rfl, takeFrame (onLineOperand n fun l s => ?_) s⟩
    dsimp only
    split
    · exact (line l _ s (driven_of_state rfl)).trans (answer _ _ _)
    · exact answer _ _ s
  | configureLineTiming n pitch =>
    refine ⟨_, rfl, takeFrame (onLineOperand n fun l s => ?_) s⟩
    dsimp only
    split
    · exact answer _ _ s
    · exact (line l _ s (driven_of_state rfl)).trans (answer _ _ _)
  | enableLine n =>
    exact ⟨_, rfl, takeFrame (whenRunning (onLineOperand n fun l s => (enableLine rfl l s).trans (answer _ _ _))) s⟩
  | disableLine n =>
    exact ⟨_, rfl, takeFrame (whenRunning (onLineOperand n fun l s => (disableLine l s).trans (answer _ _ _))) s⟩
  | setSilentLimit limit => exact ⟨_, rfl, takeFrame (onRange 2 15 limit _) s⟩
  | setGrace window => exact ⟨_, rfl, takeFrame (onRange 0 30 window _) s⟩
  | setCheckpoint step => exact ⟨_, rfl, takeFrame (onRange 1 64 step _) s⟩
  | enablePosition position =>
    exact ⟨_, rfl, takeFrame (whenRunning (onPositionOperand position fun p s =>
      (enablePosition p s).trans (answer _ _ _))) s⟩
  | disablePosition position =>
    exact ⟨_, rfl, takeFrame (whenRunning (onPositionOperand position fun p s =>
      (disablePosition p s).trans (answer _ _ _))) s⟩
  | releasePosition position =>
    exact ⟨_, rfl, takeFrame (whenRunning (onPositionOperand position fun p s =>
      (acts (.enterOff p s)).trans (answer _ _ _))) s⟩
  | readPosition position =>
    exact ⟨_, rfl, takeFrame (whenRunning (onPositionOperand position fun p s =>
      (load _ s).trans (answer _ _ _))) s⟩
  | readAttention => exact ⟨_, rfl, takeFrame (whenRunning fun s => answer _ _ s) s⟩
  | clearAttention mask =>
    exact ⟨_, rfl, takeFrame (whenRunning fun s => (attention _ s).trans (answer _ _ _)) s⟩
  | setAttentionMode pulse mask =>
    exact ⟨_, rfl, takeFrame (whenRunning fun s => (attention _ s).trans (answer _ _ _)) s⟩
  | readAttentionDetail =>
    exact ⟨_, rfl, takeFrame (whenRunning fun s => (load _ s).trans (answer _ _ _)) s⟩
  | attnPulseEnd => exact ⟨_, rfl, unlessReset (attention _) s⟩
  | cycleStart l => exact ⟨_, rfl, unlessReset (cycleStart l) s⟩
  | cycleOpenFrameEnd l =>
    exact ⟨_, rfl, unlessReset (fun s => line l _ s (driven_of_state (Line.frameEnd_state _))) s⟩
  | transmissionStart l time =>
    exact ⟨_, rfl, unlessReset (fun s => line l _ s (driven_of_state (Line.transmissionStart_state _ _))) s⟩
  | transmissionEnd l time bits =>
    exact ⟨_, rfl, unlessReset (fun s => line l _ s (driven_of_state (Line.transmissionEnd_state _ _ _))) s⟩
  | slotWindowClose l => exact ⟨_, rfl, unlessReset (windowClose rfl l) s⟩
  | intervalExpiry position => exact ⟨_, rfl, unlessReset (fun s => acts (.intervalExpiry position s)) s⟩
  | graceTimerExpiry position => exact ⟨_, rfl, unlessReset (fun s => acts (.graceExpiry position s)) s⟩
  | clockStep => exact ⟨_, rfl, unlessReset (tariff _) s⟩
  | lineFaultEvent l => exact ⟨_, rfl, unlessReset (lineFault l) s⟩
  | transferStart =>
    refine ⟨_, rfl, unlessReset (fun s => ?_) s⟩
    split
    · exact refl s
    · exact port _ s rfl

theorem spares {calls : Prop} {s t : State} (h : Runs calls s t) : Spares s t := by
  induction h with
  | acts h => exact .of_quiet (.of_acts h)
  | trans _ _ ih ik => exact ih.trans ik
  | moves _ h => exact .of_moves h
  | port | tariff | settings | attention | pwrlow | engine | line | drive => exact .of_store rfl rfl

end Runs

end Sys2Proof.Machine
end

section
/-!
PROOFS. What the resets, the start-up, the card actions and the steps of the store leave of the array, and the law O60
assembled from that.
-/

namespace Sys2Proof.Machine

/-! ### The array under single operations -/

theorem Quiet.offerRefresh (x : Slot) (s : State) : Quiet s (s.offerRefresh x) := by
  unfold State.offerRefresh
  repeat' split
  · exact refl s
  · exact refl s
  · exact coalesce _ _ _ s
  · exact refl s
  · exact refl s
  · exact offerValue_getD _ _ _ s
  · exact refl s

@[simp] theorem State.countCorrected_store (b : Bool) (s : State) : (s.countCorrected b).store = s.store := by
  unfold State.countCorrected
  rfl

@[simp] theorem State.countVerify_store (r : Record) (s : State) : (s.countVerify r).store = s.store := rfl

theorem State.valueWritten_store (x : Slot) (c : Copy) (g : Gen) (b : Bool) (s : State) :
    (s.valueWritten x c g b).store = s.store := by
  unfold State.valueWritten
  cases b
  · rfl
  · exact (Quiet.offerRefresh x _).store

theorem State.valueFailed_store (w : QueueEntry) (s : State) : (s.valueFailed w).store = s.store := by
  unfold State.valueFailed
  dsimp only
  repeat' split
  all_goals rfl

theorem State.offerRefreshIf_store (b : Bool) (x : Slot) (s : State) :
    (if b then s.offerRefresh x else s).store = s.store := by
  cases b
  · rfl
  · exact (Quiet.offerRefresh x s).store

/-! ### Operations outside `Runs` that leave the array to the step in flight -/

namespace Spares

variable {s : State}

theorem onDir (f : Directory → Directory) (s : State) : Spares s (s.onDir f) := of_store rfl rfl

theorem onPort (f : Port → Port) (s : State) : Spares s (s.onPort f) := of_store rfl rfl

theorem onPins (f : Pins → Pins) (s : State) : Spares s (s.onPins f) := of_store rfl rfl

theorem answer (code : ReplyCode) (data : Word) (s : State) : Spares s (s.answer code data) := of_store rfl rfl

theorem rebuildAsks (s : State) : Spares s s.rebuildAsks := by
  unfold State.rebuildAsks
  repeat' split
  · exact refl s
  · exact requestRead _ s
  · exact refl s

theorem rebuildNext (x : Slot) (s : State) : Spares s (s.rebuildNext x) := by
  unfold State.rebuildNext
  split <;> exact of_store rfl rfl

theorem rebuildOrphan (x : Slot) (s : State) : Spares s (s.rebuildOrphan x) :=
  (onDir _ s).trans (rebuildNext x _)

theorem rebuildIdentity (x : Slot) (o : ReadOutcome Identity) (s : State) : Spares s (s.rebuildIdentity x o) := by
  unfold State.rebuildIdentity
  repeat' split
  · exact rebuildOrphan x s
  · exact of_store rfl rfl
  · exact (onDir _ s).trans (rebuildNext x _)
  · exact rebuildOrphan x s

theorem rebuildIndex (x : Slot) (i : Identity) (a b : Option (Image × Gen)) (corrected : Bool) (s : State) :
    Spares s (s.rebuildIndex x i a b corrected) := by
  unfold State.rebuildIndex
  dsimp only
  refine trans ?_ (rebuildNext x _)
  repeat' split
  · exact (onDir _ s).trans (of_quiet (.offerValue_getD _ _ _ _))
  · exact of_store rfl rfl
  · exact of_store rfl rfl

theorem rebuildValue (x : Slot) (o : ReadOutcome (Image × Gen)) (s : State) : Spares s (s.rebuildValue x o) := by
  unfold State.rebuildValue
  split
  · exact of_store rfl rfl
  · exact rebuildIndex _ _ _ _ _ s
  · exact refl s

theorem identityRead (r : ReadRequest) (o : ReadOutcome Identity) (s : State) : Spares s (s.identityRead r o) := by
  unfold State.identityRead
  split
  · exact rebuildIdentity _ _ s
  · exact (Runs.actionIdentity trivial o s).spares
  · exact refl s

theorem valueRead (r : ReadRequest) (c : Copy) (o : ReadOutcome (Image × Gen)) (s : State) :
    Spares s (s.valueRead r c o) := by
  unfold State.valueRead
  split
  · exact rebuildValue _ _ s
  · exact (Runs.actionValue trivial c o s).spares
  · exact of_moves (.claimRead _ c o s)

theorem countCorrected (b : Bool) (s : State) : Spares s (s.countCorrected b) :=
  (Runs.countCorrected (calls := True) b s).spares

theorem deliverRead (r : ReadRequest) (s : State) : Spares s (s.deliverRead r) := by
  unfold State.deliverRead
  dsimp only
  split
  · exact (countCorrected _ s).trans (identityRead r _ _)
  · exact (countCorrected _ s).trans (valueRead r _ _ _)
  · exact (countCorrected _ s).trans (valueRead r _ _ _)

theorem serveNext (s : State) : Spares s s.serveNext := by
  refine of_store rfl ?_
  unfold State.serveNext
  simp only [State.onEngine_engine]
  split <;> rfl

theorem foldLines {f : State → LineIx → State} (h : ∀ s l, Spares s (f s l)) (ls : List LineIx) (s : State) :
    Spares s (ls.foldl f s) := by
  induction ls generalizing s with
  | nil => exact refl s
  | cons l ls ih => exact (h s l).trans (ih _)

theorem startUp (s : State) : Spares s s.startUp :=
  (((onPort _ s).trans (foldLines (fun t l => (Runs.enableLine trivial l t).spares) allLines _)).trans
    (onDir _ _)).trans (rebuildAsks _)

theorem beginDrain (s : State) : Spares s s.beginDrain :=
  (onPort _ s).trans (foldLines (fun t l => (Runs.disableLine (calls := True) l t).spares) allLines _)

theorem answerLatched (code : ReplyCode) (data : Word) (s : State) : Spares s (s.answerLatched code data) :=
  of_store rfl rfl

theorem takeFrame {act : State → State} (h : ∀ s, Spares s (act s)) (s : State) : Spares s (takeFrame act s) := by
  unfold Machine.takeFrame
  dsimp only
  repeat' split
  · exact refl s
  · exact (onPort _ s).trans (h _)
  · exact onPort _ s

theorem whenRunning {act : State → State} (h : ∀ s, Spares s (act s)) (s : State) :
    Spares s (whenRunning act s) := by
  unfold Machine.whenRunning
  split
  · exact h s
  · exact of_store rfl rfl

theorem latched {act : State → State} (h : ∀ s, Spares s (act s)) (s : State) : Spares s (latched act s) := by
  unfold Machine.latched
  repeat' split
  · exact answerLatched _ _ s
  · exact h s
  · exact answerLatched _ _ s

theorem resetLeave (s : State) : Spares s (Machine.takeFrame (fun s => match s.port.mode with
    | .draining => s.answer .pending 0
    | .inReset => s.startUp.answer .ok 0
    | .running | .starting => s.answer .badState 0) s) :=
  takeFrame (fun s => by
    split
    · exact answer _ _ s
    · exact (startUp s).trans (answer _ _ _)
    · exact answer _ _ s
    · exact answer _ _ s) s

theorem leaveReset (change : Pins → Pins) (s : State) : Spares s (s.leaveReset change) := by
  unfold State.leaveReset
  dsimp only
  split
  · exact (onPins _ s).trans (startUp _)
  · exact onPins _ s

theorem tear (cut : Cut) (s : State) : Spares s (s.tear cut) := by
  unfold State.tear
  split
  · exact refl s
  · next f flying =>
    refine onRecord flying fun c n step r => ?_
    rw [step]
    split
    · exact FlightStep.torn_writeValue c n cut r
    · exact FlightStep.cells_writeValue c n _ r

end Spares

/-- The actions that place a slot leave the array as it is. -/
theorem Spares.of_placing {c : Instr} (h : c = .issue ∨ c = .retire ∨ c = .eraseSlot) (s : State) :
    ∃ t, exec c s = .next t ∧ Spares s t := by
  obtain rfl | rfl | rfl := h
  · refine ⟨_, rfl, takeFrame (latched fun s => ?_) s⟩
    dsimp only
    repeat' split
    all_goals exact of_store rfl rfl
  · refine ⟨_, rfl, takeFrame (latched fun s => ?_) s⟩
    unfold State.onUnlockedCard
    dsimp only
    repeat' split
    all_goals exact of_store rfl rfl
  · refine ⟨_, rfl, takeFrame (latched fun s => ?_) s⟩
    dsimp only
    repeat' split
    all_goals exact of_store rfl rfl

/-! ### What O60 says of a command that may end the flight -/

/-- Of the array, the slot of the entry in flight alone may have changed, and a VALUE write has touched its target
alone. -/
structure Leaves (s t : State) : Prop where
  others : storeWf s.store = true → ∀ x, (∀ f ∈ s.engine.flight, f.entry.slot ≠ x) → t.record x = s.record x
  value : storeWf s.store = true → ∀ f ∈ s.engine.flight, ∀ c g, f.step = .writeValue c g →
    (t.record f.entry.slot).copy c.other = (s.record f.entry.slot).copy c.other ∧
      (t.record f.entry.slot).identity = (s.record f.entry.slot).identity

theorem Spares.leaves {s t u : State} (h : Spares s t) (store : u.store = t.store) : Leaves s u := by
  have same : ∀ x, u.record x = t.record x := fun x => by rw [State.record, store]; rfl
  exact ⟨fun w x hx => (same x).trans (h.others w x hx), fun w f hf c g step => by
    rw [same]; exact h.value w f hf c g step⟩

namespace Leaves

theorem pinReset (cut : Cut) (change : Pins → Pins) (s : State) : Leaves s (s.pinReset cut change) :=
  (Spares.tear cut s).leaves rfl

theorem valueWriteComplete (left : Granule RawValue) (s : State) : Leaves s (s.valueWriteComplete left) := by
  unfold State.valueWriteComplete
  split
  · next f stepping =>
    obtain ⟨-, flying⟩ := State.stepping_eq_some.1 stepping
    split
    · next c g step =>
      have written : Spares s (s.onRecord f.entry.slot fun r =>
          r.withCopy c ((s.found f (blankRecord.withCopy c left)).copy c)) := by
        refine Spares.onRecord flying fun d n h r => ?_
        rw [step] at h
        cases h
        cases c <;> exact ⟨rfl, rfl⟩
      dsimp only
      split
      · refine written.leaves ?_
        rw [State.valueWritten_store, State.countCorrected_store]
      · refine written.leaves ?_
        rw [State.valueFailed_store, State.offerRefreshIf_store, State.countCorrected_store]
    · exact (Spares.refl s).leaves rfl
  · exact (Spares.refl s).leaves rfl

/-- The slot in flight is rewritten by a step that writes no value copy. -/
theorem of_step {s t : State} {f : Flight} (flying : s.engine.flight = some f) (step : ∀ c g, f.step ≠ .writeValue c g)
    (g : Record → Record) (store : t.store = (s.onRecord f.entry.slot g).store) : Leaves s t :=
  (Spares.onRecord flying fun c n h _ => absurd h (step c n)).leaves store

theorem onRecord_twice (x : Slot) (f g : Record → Record) {s : State} (w : storeWf s.store = true) (y : Slot) :
    ((s.onRecord x f).onRecord x g).record y = (s.onRecord x (g ∘ f)).record y := by
  rw [State.record_onRecord _ _ _ _ (State.storeWf_onRecord x f s w), State.record_onRecord _ _ _ _ w,
    State.record_onRecord _ _ _ _ w, State.record_onRecord _ _ _ _ w]
  split
  · rw [if_pos rfl]; rfl
  · rfl

/-- The slot in flight is rewritten by a step that writes no value copy, and the next step begins. -/
theorem of_begin {s t : State} {f : Flight} (flying : s.engine.flight = some f)
    (step : ∀ c g, f.step ≠ .writeValue c g) (g : Record → Record) (next : FlightStep)
    (store : t.store = (s.onRecord f.entry.slot g).store) : Leaves s (t.begin f.entry next) := by
  have once := of_step flying step (next.cells next.first ∘ g) (t := s.onRecord f.entry.slot
    (next.cells next.first ∘ g)) rfl
  have same : storeWf s.store = true → ∀ y, (t.begin f.entry next).record y =
      (s.onRecord f.entry.slot (next.cells next.first ∘ g)).record y := fun w y => by
    rw [← onRecord_twice _ _ _ w]
    show recordAt (putRecord t.store _ _) y = recordAt (putRecord (s.onRecord f.entry.slot g).store _ _) y
    rw [store]
  exact ⟨fun w x hx => (same w x).trans (once.others w x hx), fun w _ hf c n h => by
    rw [same w]; exact once.value w _ hf c n h⟩

theorem issueStepComplete (left : Record) (s : State) : Leaves s (s.issueStepComplete left) := by
  unfold State.issueStepComplete
  split
  · next f stepping =>
    obtain ⟨-, flying⟩ := State.stepping_eq_some.1 stepping
    dsimp only
    split
    · next step =>
      split
      · exact of_begin flying (by simp [step]) (fun _ => s.found f left) _ rfl
      · exact of_step flying (by simp [step]) (fun _ => s.found f left) rfl
    · next step _ =>
      split
      · exact of_begin flying (by simp [step]) (fun x => x.take .identity (s.found f left)) _ rfl
      · exact of_step flying (by simp [step]) (fun x => x.take .identity (s.found f left)) rfl
    · next step =>
      split
      · exact of_step flying (by simp [step]) (fun x => x.take .copyA (s.found f left)) rfl
      · exact of_step flying (by simp [step]) (fun x => x.take .copyA (s.found f left)) rfl
    · exact (Spares.refl s).leaves rfl
  · exact (Spares.refl s).leaves rfl

theorem eraseComplete (left : Record) (s : State) : Leaves s (s.eraseComplete left) := by
  unfold State.eraseComplete
  split
  · next f stepping =>
    obtain ⟨-, flying⟩ := State.stepping_eq_some.1 stepping
    dsimp only
    split
    · next step =>
      repeat' split
      all_goals exact of_step flying (by simp [step]) (fun _ => s.found f left) rfl
    · exact (Spares.refl s).leaves rfl
  · exact (Spares.refl s).leaves rfl

theorem unlessReset {act : State → State} (h : ∀ s, Leaves s (act s)) (s : State) :
    Leaves s (unlessReset act s) := by
  unfold Machine.unlessReset
  split
  · exact (Spares.refl s).leaves rfl
  · exact h s

theorem enterInReset (s : State) : Leaves s (if s.drained then s.enterInReset else s) := by
  split
  · exact (Spares.refl s).leaves rfl
  · exact (Spares.refl s).leaves rfl

/-- Every command but a completed read and the start of an entry leaves the array to the step in flight. -/
theorem of_exec (c : Instr) (s : State) (read : ∀ change, c ≠ .storeReadComplete change) (start : c ≠ .entryStart) :
    ∃ t, exec c s = .next t ∧ Leaves s t := by
  by_cases h : reshapes c = true
  · cases c with
    | powerOn cut => exact ⟨_, rfl, pinReset cut _ s⟩
    | powerFailure cut => exact ⟨_, rfl, pinReset cut _ s⟩
    | resetnAsserted cut =>
      refine ⟨_, rfl, ?_⟩
      split
      · exact (Spares.refl s).leaves rfl
      · exact pinReset cut _ s
    | resetnDeasserted =>
      refine ⟨_, rfl, ?_⟩
      split
      · exact (Spares.leaveReset _ s).leaves rfl
      · exact (Spares.refl s).leaves rfl
    | supplyValid =>
      refine ⟨_, rfl, ?_⟩
      split
      · exact (Spares.leaveReset _ s).leaves rfl
      · exact (Spares.refl s).leaves rfl
    | resetEnter =>
      exact ⟨_, rfl, (Spares.takeFrame (Spares.whenRunning fun s =>
        (Spares.beginDrain s).trans (.answer _ _ _)) s).leaves rfl⟩
    | enterInReset => exact ⟨_, rfl, unlessReset enterInReset s⟩
    | resetLeave => exact ⟨_, rfl, (Spares.resetLeave s).leaves rfl⟩
    | issue =>
      obtain ⟨t, ht, kept⟩ := Spares.of_placing (.inl rfl) s
      exact ⟨t, ht, kept.leaves rfl⟩
    | retire =>
      obtain ⟨t, ht, kept⟩ := Spares.of_placing (.inr (.inl rfl)) s
      exact ⟨t, ht, kept.leaves rfl⟩
    | eraseSlot =>
      obtain ⟨t, ht, kept⟩ := Spares.of_placing (.inr (.inr rfl)) s
      exact ⟨t, ht, kept.leaves rfl⟩
    | storeReadComplete change => exact absurd rfl (read change)
    | entryStart => exact absurd rfl start
    | valueWriteComplete left => exact ⟨_, rfl, unlessReset (valueWriteComplete left) s⟩
    | issueStepComplete left => exact ⟨_, rfl, unlessReset (issueStepComplete left) s⟩
    | eraseComplete left => exact ⟨_, rfl, unlessReset (eraseComplete left) s⟩
    | _ => nomatch h
  · obtain ⟨t, ht, runs⟩ := Runs.of_exec (by simpa using h) s
    exact ⟨t, ht, runs.spares.leaves rfl⟩

end Leaves

/-! ### A completed read and the start of an entry -/

theorem State.rebuildAsks_reading {s : State} {r : ReadRequest} (h : s.rebuildAsks.engine.reading = some r) :
    r ∈ (s.engine.reading <|> s.dir.rebuild.map Rebuild.request) := by
  unfold State.rebuildAsks at h
  cases reading : s.engine.reading with
  | some q =>
    have same : s.rebuildAsks = s := by unfold State.rebuildAsks; split <;> simp [reading]
    simp only [reading, Option.isSome_some, if_true] at h
    simpa using (by split at h <;> simp_all : q = r)
  | none =>
    simp only [reading, Option.isSome_none, Bool.false_eq_true, if_false] at h
    split at h
    · next b hb =>
      simp only [State.requestRead, reading, Option.isSome_none, Bool.false_eq_true, if_false,
        State.onEngine_engine, Option.some.injEq] at h
      simp [hb, h]
    · simp [reading] at h

theorem readComplete_others (change : CellChange) {s : State} (w : storeWf s.store = true) {x : Slot}
    (flight : ∀ f ∈ s.engine.flight, f.entry.slot ≠ x)
    (read : ∀ r ∈ (s.engine.reading <|> s.dir.rebuild.map Rebuild.request), r.slot ≠ x) :
    (s.readComplete change).record x = s.record x := by
  unfold State.readComplete
  dsimp only
  split
  · rfl
  · next r reading =>
    have asked := Spares.rebuildAsks s
    have kept := asked.store w
    have later := (Spares.deliverRead r ((s.rebuildAsks.onRecord r.slot fun y => y.after r.granule change))).trans
      (Spares.serveNext _)
    calc _ = (s.rebuildAsks.onRecord r.slot fun y => y.after r.granule change).record x :=
          later.others (State.storeWf_onRecord _ _ _ kept) x (Calls.slots_of_flight asked.flight flight)
      _ = s.rebuildAsks.record x := by
          rw [State.record_onRecord _ _ _ _ kept, if_neg (read r (State.rebuildAsks_reading reading))]
      _ = s.record x := asked.others w x flight

theorem start_others {e : QueueEntry} (step : FlightStep) {s : State} (w : storeWf s.store = true) {x : Slot}
    (other : e.slot ≠ x) : (s.start e step).record x = s.record x := by
  show recordAt (s.onRecord e.slot _).store x = _
  exact (State.record_onRecord _ _ _ s w).trans (if_neg other)

theorem entryStart_others {s : State} (w : storeWf s.store = true) {x : Slot}
    (head : ∀ e ∈ s.engine.waiting.head?, e.slot ≠ x) : s.entryStart.record x = s.record x := by
  unfold State.entryStart
  split
  · rfl
  · split
    · rfl
    · next e rest waiting =>
      have other : e.slot ≠ x := head e (by simp [waiting])
      repeat' split
      · exact start_others _ w other
      · rfl
      · exact start_others _ w other
      · exact start_others _ w other
      · exact start_others _ w other

theorem entryStart_of_flight {s : State} {f : Flight} (h : s.engine.flight = some f) : s.entryStart = s :=
  if_pos (.inr (.inr (by simp [h])))

theorem unlessReset_record {act : State → State} {s : State} {x : Slot} (h : (act s).record x = s.record x) :
    (unlessReset act s).record x = s.record x := by
  unfold Machine.unlessReset
  split
  · rfl
  · exact h

/-- Settles O60: by the passage over the commands in `Leaves.of_exec`, a completed read and the start of an entry
apart. -/
theorem onlyTheEngineWritesTheArray : Obligations.OnlyTheEngineWritesTheArray := by
  intro c s t w next
  by_cases read : ∃ change, c = .storeReadComplete change
  · obtain ⟨change, rfl⟩ := read
    cases next
    refine ⟨fun x changed => ?_, fun other => absurd rfl (other change)⟩
    by_contra elsewhere
    push Not at elsewhere
    obtain ⟨flight, reads, -⟩ := elsewhere
    exact changed (unlessReset_record (readComplete_others change w flight fun r hr hx => reads r hr hx change rfl))
  by_cases start : c = .entryStart
  · subst start
    cases next
    refine ⟨fun x changed => ?_, fun _ f flying c g _ => ?_⟩
    · by_contra elsewhere
      push Not at elsewhere
      obtain ⟨-, -, head⟩ := elsewhere
      exact changed (unlessReset_record (entryStart_others w (head rfl)))
    · have same : (unlessReset State.entryStart s).record f.entry.slot = s.record f.entry.slot :=
        unlessReset_record (by rw [entryStart_of_flight flying])
      rw [same]
      exact ⟨rfl, rfl⟩
  · obtain ⟨u, hu, kept⟩ := Leaves.of_exec c s (not_exists.1 read) start
    rw [hu] at next
    cases next
    refine ⟨fun x changed => .inl ?_, fun _ => kept.value w⟩
    by_contra elsewhere
    push Not at elsewhere
    exact changed (kept.others w x elsewhere)

end Sys2Proof.Machine
end

section
/-!
PROOFS. What the updates of `Runs` keep of the directory: which slots are placed and which reads the rebuild has asked
for (`Places`), whose claims the entries stand for (`State.claimsHeld`), and that a part without claims whose engine is
idle and whose lines are not driven stays so (`State.dormant`).
-/

namespace Sys2Proof.Machine

/-- What a read request does to the state: the flight keeps its entry, and the request is in flight or the last listed. -/
theorem State.requestRead_spec (r : ReadRequest) (s : State) :
    ∃ st fl b n rd rl, s.requestRead r = { s with store := st, moments := n, engine := { s.engine with
        flight := fl, suspended := b, reading := rd, readList := rl } } ∧
      fl.map Flight.entry = s.engine.flight.map Flight.entry ∧
      ((∃ q, s.engine.reading = some q ∧ rd = some q ∧ rl = s.engine.readList ++ [r]) ∨
        s.engine.reading = none ∧ rd = some r ∧ rl = s.engine.readList) := by
  unfold State.requestRead
  cases reading : s.engine.reading with
  | some q =>
    refine ⟨s.store, s.engine.flight, s.engine.suspended, s.moments, some q, _, ?_, rfl, .inl ⟨q, rfl, rfl, rfl⟩⟩
    rw [if_pos (by rfl), ← reading]
    rfl
  | none =>
    obtain ⟨st, fl, b, n, h, -, -, same, -⟩ := s.suspend_spec
    refine ⟨st, fl, b, n, some r, s.engine.readList, ?_, ?_, .inr ⟨rfl, rfl, rfl⟩⟩
    · simp [State.onEngine, h]
    · simpa [Option.map_map, Function.comp_def] using congrArg (Option.map Prod.fst) same

/-! ### The slots placed -/

/-- `t` places no slot and indexes no serial that `s` does not; the rebuild, its requests and the mode stand. -/
structure Places (s t : State) : Prop where
  placed : t.placed.Subperm s.placed
  serials : (t.dir.entries.map DirEntry.serial).Sublist (s.dir.entries.map DirEntry.serial)
  rebuild : t.dir.rebuild = s.dir.rebuild
  ready : t.dir.ready = s.dir.ready
  mode : t.port.mode = s.port.mode
  released : t.pins.released = s.pins.released
  requests : t.engine.rebuildRequests = s.engine.rebuildRequests
  served : (s.engine.reading = none → s.engine.readList = [] ∧ s.engine.suspended = false) →
    t.engine.reading = none → t.engine.readList = [] ∧ t.engine.suspended = false

/-- A VALUE entry erases nothing. -/
theorem QueueEntry.isErase_of_isValue {e : QueueEntry} (h : e.isValue = true) : e.isErase = false := by
  unfold QueueEntry.isValue at h
  unfold QueueEntry.isErase
  split at h <;> simp_all

theorem Engine.erasing_join {e : Engine} {w : QueueEntry} (h : w.isErase = false) :
    ({ e with waiting := e.waiting ++ [w] } : Engine).erasing = e.erasing := by
  simp [Engine.erasing, List.filter_append, h]

theorem Engine.erasing_of_flight {e f : Engine} (waiting : f.waiting = e.waiting)
    (flight : f.flight.map Flight.entry = e.flight.map Flight.entry) : f.erasing = e.erasing := by
  simp [Engine.erasing, waiting, flight]

theorem erasing_coalesce (x : Slot) (i : Image) (origin : Origin) (s : State) :
    (s.coalesce x i origin).engine.erasing = s.engine.erasing := by
  have same : ∀ ws : List QueueEntry,
      ((ws.map fun e => if e.isValue = true ∧ e.slot = x then { e with work := .value i, origin := origin } else e).filter
        QueueEntry.isErase).map QueueEntry.slot = (ws.filter QueueEntry.isErase).map QueueEntry.slot := by
    intro ws
    induction ws with
    | nil => rfl
    | cons w ws ih =>
      by_cases h : w.isValue = true ∧ w.slot = x
      · have before := QueueEntry.isErase_of_isValue h.1
        have after : ({ w with work := .value i, origin := origin } : QueueEntry).isErase = false := rfl
        rw [List.map_cons, if_pos h, List.filter_cons_of_neg (by simp [after]), ih,
          List.filter_cons_of_neg (by simp [before])]
      · rw [List.map_cons, if_neg h]
        cases hw : w.isErase
        · rw [List.filter_cons_of_neg (by simp [hw]), List.filter_cons_of_neg (by simp [hw]), ih]
        · rw [List.filter_cons_of_pos hw, List.filter_cons_of_pos hw, List.map_cons, List.map_cons, ih]
  simp only [Engine.erasing, State.coalesce, State.onEngine_engine, List.filter_append, List.map_append, same]

namespace Places

variable {s t u : State}

theorem refl (s : State) : Places s s := ⟨.refl _, .refl _, rfl, rfl, rfl, rfl, rfl, id⟩

theorem trans (h : Places s t) (k : Places t u) : Places s u where
  placed := k.placed.trans h.placed
  serials := k.serials.trans h.serials
  rebuild := k.rebuild.trans h.rebuild
  ready := k.ready.trans h.ready
  mode := k.mode.trans h.mode
  released := k.released.trans h.released
  requests := k.requests.trans h.requests
  served := k.served ∘ h.served

/-- The queue changes, and no slot joins or leaves those that are erased. -/
theorem of_waiting (engine : t.engine = { s.engine with waiting := t.engine.waiting })
    (erasing : t.engine.erasing = s.engine.erasing)
    (entries : t.dir.entries.map DirEntry.slot = s.dir.entries.map DirEntry.slot)
    (serials : t.dir.entries.map DirEntry.serial = s.dir.entries.map DirEntry.serial)
    (dir : t.dir = { s.dir with entries := t.dir.entries, claims := t.dir.claims })
    (mode : t.port.mode = s.port.mode) (pins : t.pins = s.pins) : Places s t where
  placed := by
    have : t.placed = s.placed := by unfold State.placed; rw [entries, erasing, dir]
    rw [this]
  serials := by rw [serials]
  rebuild := by rw [dir]
  ready := by rw [dir]
  mode := mode
  released := by rw [pins]
  requests := by rw [engine]; rfl
  served := by rw [engine]; exact id

theorem onEntry (x : Slot) (f : DirEntry → DirEntry) (s : State) (slot : ∀ e, (f e).slot = e.slot)
    (serial : ∀ e, (f e).serial = e.serial) : Places s (s.onEntry x f) := by
  have mapped : ∀ {α : Type} (g : DirEntry → α), (∀ e, g (f e) = g e) →
      (s.onEntry x f).dir.entries.map g = s.dir.entries.map g := by
    intro α g h
    rw [State.onEntry, State.onDir_dir, List.map_map]
    refine List.map_congr_left fun e _ => ?_
    dsimp only [Function.comp]
    split
    · exact h e
    · rfl
  exact of_waiting rfl rfl (mapped _ slot) (mapped _ serial) rfl rfl rfl

theorem release (x : Slot) (s : State) : Places s (s.release x) := onEntry x _ s (fun _ => rfl) fun _ => rfl

theorem onCtx (p : Pos) (f : Position → Position) (s : State) : Places s (s.onCtx p f) :=
  of_waiting rfl rfl rfl rfl rfl rfl rfl

theorem markAppeared_mode (x : Slot) (s : State) : (s.markAppeared x).port.mode = s.port.mode := by
  unfold State.markAppeared
  simp only [State.onPort_port, State.onDir_port]
  repeat' split
  all_goals rfl

theorem joinQueue {e : QueueEntry} (h : e.isErase = false) (s : State) : Places s (s.joinQueue e) :=
  of_waiting rfl (Engine.erasing_join h) rfl rfl rfl (markAppeared_mode _ _) rfl

theorem coalesce (x : Slot) (i : Image) (origin : Origin) (s : State) : Places s (s.coalesce x i origin) :=
  of_waiting rfl (erasing_coalesce x i origin s) rfl rfl rfl rfl rfl

theorem offerSettlement (x : Slot) (i : Image) (s : State) : Places s (s.offerSettlement x i) := by
  unfold State.offerSettlement
  split
  · exact coalesce x i _ s
  · exact joinQueue rfl s

theorem offerValue_getD (x : Slot) (i : Image) (origin : Origin) (s : State) :
    Places s ((s.offerValue x i origin).getD s) := by
  unfold State.offerValue
  repeat' split
  · exact coalesce x i _ s
  · exact joinQueue rfl s
  · exact refl s

theorem endClaim (p : Pos) (blocked : Bool) (s : State) : Places s (s.endClaim p blocked) := by
  unfold State.endClaim
  split
  · exact refl s
  · next k _ => exact ((offerSettlement k.slot _ s).trans (release _ _)).trans (onCtx p _ _)

theorem checkpoint (p : Pos) (s : State) : Places s (s.checkpoint p) := by
  unfold State.checkpoint
  split
  · exact refl s
  · next k _ => exact (offerSettlement k.slot _ s).trans (onCtx p _ _)

theorem of_acts (h : Acts s t) : Places s t := by
  induction h with
  | refl s => exact refl s
  | trans _ _ ih ik => exact ih.trans ik
  | onCtx p f s _ => exact onCtx p f s
  | raise g f s => exact of_waiting rfl rfl rfl rfl rfl rfl rfl
  | count t s => exact of_waiting rfl rfl rfl rfl rfl rfl rfl
  | endClaim p b s => exact endClaim p b s
  | checkpoint p s => exact checkpoint p s

theorem takeAnswer (p : Pos) (a : ClaimAnswer) (s : State) : Places s (s.takeAnswer p a) := by
  cases a with
  | accepted x cls i =>
    obtain h | ⟨j, h⟩ | ⟨f, -, h⟩ := s.takeAnswer_accepted p x cls i
    · rw [h]; exact refl s
    · rw [h]; exact ((onCtx p _ s).trans (offerSettlement x j _)).trans (release x _)
    · exact (onCtx p f s).trans (of_acts h)
  | refused r => exact of_acts (Acts.takeAnswer_other p rfl s)
  | wait => exact of_acts (Acts.takeAnswer_other p rfl s)

theorem completeClaim (x : Serial) (p : Pos) (i : Option Image) (s : State) : Places s (s.completeClaim x p i).1 := by
  obtain ⟨e, j, -, -, -, h⟩ | ⟨-, h⟩ := s.completeClaim_cases x p i
  · rw [h]; exact onEntry _ _ s (fun _ => rfl) fun _ => rfl
  · exact of_acts h

/-- A read that the rebuild has not asked for. -/
theorem requestRead {r : ReadRequest} (other : r.who ≠ .rebuild) (s : State) : Places s (s.requestRead r) := by
  obtain ⟨st, fl, b, n, rd, rl, h, entry, reads⟩ := s.requestRead_spec r
  rw [h]
  refine ⟨?_, .refl _, rfl, rfl, rfl, rfl, ?_, fun _ none => ?_⟩
  · have erasing : ({ s.engine with flight := fl, suspended := b, reading := rd, readList := rl } : Engine).erasing =
        s.engine.erasing := Engine.erasing_of_flight rfl entry
    show (s.dir.entries.map DirEntry.slot ++ s.dir.free ++ Engine.erasing _).Subperm _
    rw [erasing]
    exact .refl _
  · obtain ⟨q, before, rfl, rfl⟩ | ⟨before, rfl, rfl⟩ := reads
    · simp [Engine.rebuildRequests, before, List.filter_cons, other]
    · simp [Engine.rebuildRequests, before, other]
  · obtain ⟨q, -, rfl, -⟩ | ⟨-, rfl, -⟩ := reads <;> nomatch none

theorem of_moves (h : Moves s t) : Places s t := by
  induction h with
  | acts h => exact of_acts h
  | trans _ _ ih ik => exact ih.trans ik
  | grant x p i s => exact (completeClaim x p i s).trans (takeAnswer p _ _)
  | claims f s => exact of_waiting rfl rfl rfl rfl rfl rfl rfl
  | note x f s same => exact onEntry x f s (fun e => (same e).2.1) fun e => (same e).1
  | offer x i origin s => exact offerValue_getD x i origin s
  | coalesce x i origin s => exact coalesce x i origin s
  | read r s other => exact requestRead other s

theorem of_runs {calls : Prop} (h : Runs calls s t) : Places s t := by
  induction h with
  | acts h => exact of_acts h
  | trans _ _ ih ik => exact ih.trans ik
  | moves _ h => exact of_moves h
  | port f s mode => exact of_waiting rfl rfl rfl rfl rfl mode rfl
  | tariff | settings | attention | line | drive => exact of_waiting rfl rfl rfl rfl rfl rfl rfl
  | pwrlow => exact ⟨.refl _, .refl _, rfl, rfl, rfl, rfl, rfl, id⟩
  | engine => exact ⟨.refl _, .refl _, rfl, rfl, rfl, rfl, rfl, id⟩

end Places

/-! ### Whose claims the entries stand for -/

/-- The record of every position's claim is claimed by that position (R36). -/
def State.claimsHeld (s : State) : Prop :=
  ∀ p, ∀ k ∈ (s.ctx p).claim, ∃ e ∈ s.dir.entries, e.slot = k.slot ∧ e.claimedBy = some p

/-- No slot is indexed twice. -/
def State.slotsOnce (s : State) : Prop := (s.dir.entries.map DirEntry.slot).Nodup

theorem State.slotsOnce.eq {s : State} (once : s.slotsOnce) {d e : DirEntry} (hd : d ∈ s.dir.entries)
    (he : e ∈ s.dir.entries) (h : d.slot = e.slot) : d = e :=
  List.inj_on_of_nodup_map once hd he h

/-- Of the laws of claims, what a step that places no slot keeps. -/
structure Claimed (s t : State) : Prop where
  slots : t.dir.entries.map DirEntry.slot = s.dir.entries.map DirEntry.slot
  held : s.slotsOnce → s.claimsHeld → t.claimsHeld

namespace Claimed

variable {s t u : State}

theorem refl (s : State) : Claimed s s := ⟨rfl, fun _ => id⟩

theorem trans (h : Claimed s t) (k : Claimed t u) : Claimed s u :=
  ⟨k.slots.trans h.slots, fun once held => k.held (by rw [State.slotsOnce, h.slots]; exact once) (h.held once held)⟩

/-- The entries keep their slots and who claims them, and the positions their claims. -/
theorem of_same (entries : t.dir.entries.map (fun e => (e.slot, e.claimedBy)) =
      s.dir.entries.map fun e => (e.slot, e.claimedBy))
    (claims : ∀ p, (t.ctx p).claim = (s.ctx p).claim) : Claimed s t where
  slots := by simpa [Function.comp_def] using congrArg (List.map Prod.fst) entries
  held := fun _ held p k hk => by
    rw [claims] at hk
    obtain ⟨e, he, slot, by'⟩ := held p k hk
    have pair : (e.slot, e.claimedBy) ∈ t.dir.entries.map fun e => (e.slot, e.claimedBy) := by
      rw [entries]
      exact List.mem_map_of_mem he
    obtain ⟨d, hd, same⟩ := List.mem_map.1 pair
    simp only [Prod.mk.injEq] at same
    exact ⟨d, hd, same.1.trans slot, same.2.trans by'⟩

theorem onCtx (p : Pos) (f : Position → Position) (s : State) (h : (f (s.ctx p)).claim = (s.ctx p).claim) :
    Claimed s (s.onCtx p f) := by
  refine of_same rfl fun q => ?_
  rw [State.ctx_onCtx]
  split
  · next e => cases e; exact h
  · rfl

theorem onEntry (x : Slot) (f : DirEntry → DirEntry) (s : State) (h : ∀ e, (f e).sameCard e) :
    Claimed s (s.onEntry x f) := by
  refine of_same ?_ fun _ => rfl
  rw [State.onEntry, State.onDir_dir, List.map_map]
  refine List.map_congr_left fun e _ => ?_
  dsimp only [Function.comp]
  split
  · rw [(h e).2.1, (h e).2.2]
  · rfl

theorem of_queue (entries : t.dir.entries = s.dir.entries) (positions : t.positions = s.positions) : Claimed s t :=
  of_same (by rw [entries]) fun p => by rw [State.ctx, positions]; rfl

theorem offerSettlement (x : Slot) (i : Image) (s : State) : Claimed s (s.offerSettlement x i) := by
  unfold State.offerSettlement
  split <;> exact of_queue rfl rfl

theorem offerValue_getD (x : Slot) (i : Image) (origin : Origin) (s : State) :
    Claimed s ((s.offerValue x i origin).getD s) := by
  unfold State.offerValue
  repeat' split
  all_goals exact of_queue rfl rfl

theorem requestRead (r : ReadRequest) (s : State) : Claimed s (s.requestRead r) := by
  obtain ⟨st, fl, b, n, rd, rl, h, -⟩ := s.requestRead_spec r
  rw [h]
  exact of_queue rfl rfl

/-- A record whose claim no position holds is released. -/
theorem release_held {x : Slot} (held : s.claimsHeld) (none : ∀ p, ∀ k ∈ (s.ctx p).claim, k.slot ≠ x) :
    (s.release x).claimsHeld := by
  intro p k hk
  obtain ⟨e, he, slot, by'⟩ := held p k hk
  refine ⟨e, ?_, slot, by'⟩
  have other : e.slot ≠ x := slot ▸ none p k hk
  exact List.mem_map.2 ⟨e, he, if_neg other⟩

/-- A claim is held by one position only. -/
theorem slot_ne_of_ne {p q : Pos} (once : s.slotsOnce) (held : s.claimsHeld) {k m : Claim}
    (hk : k ∈ (s.ctx p).claim) (hm : m ∈ (s.ctx q).claim) (other : p ≠ q) : m.slot ≠ k.slot := by
  intro same
  obtain ⟨d, hd, dslot, dby⟩ := held p k hk
  obtain ⟨e, he, eslot, eby⟩ := held q m hm
  have : d = e := once.eq hd he (by rw [dslot, eslot, same])
  rw [this, eby] at dby
  exact other (Option.some.inj dby).symm

theorem slots_release (x : Slot) (s : State) :
    (s.release x).dir.entries.map DirEntry.slot = s.dir.entries.map DirEntry.slot := by
  rw [State.release, State.onEntry, State.onDir_dir, List.map_map]
  refine List.map_congr_left fun e _ => ?_
  dsimp only [Function.comp]
  split <;> rfl

theorem endClaim (p : Pos) (blocked : Bool) (s : State) : Claimed s (s.endClaim p blocked) := by
  unfold State.endClaim
  split
  · exact refl s
  · next k hk =>
    have queued := offerSettlement k.slot (k.settlement (s.ctx p).working blocked) s
    refine ⟨(slots_release _ _).trans queued.slots, fun once held q m hm => ?_⟩
    have other : p ≠ q := by
      rintro rfl
      rw [State.ctx_onCtx_same] at hm
      nomatch hm
    rw [State.ctx_onCtx_other other] at hm
    have ctx : ∀ q, ((s.offerSettlement k.slot (k.settlement (s.ctx p).working blocked)).ctx q).claim =
        (s.ctx q).claim := by
      intro q
      unfold State.offerSettlement
      split <;> rfl
    have kept := queued.held once held
    have released : ∀ q', ∀ m ∈ (s.ctx q').claim, q' = q → m.slot ≠ k.slot := by
      rintro q' n hn rfl
      exact slot_ne_of_ne once held hk hn other
    obtain ⟨e, he, slot, by'⟩ := kept q m hm
    have hm' : m ∈ (s.ctx q).claim := by rw [← ctx]; exact hm
    refine ⟨e, List.mem_map.2 ⟨e, he, if_neg ?_⟩, slot, by'⟩
    rw [slot]
    exact released q m hm' rfl

theorem checkpoint (p : Pos) (s : State) : Claimed s (s.checkpoint p) := by
  unfold State.checkpoint
  split
  · exact refl s
  · next k _ => exact (offerSettlement k.slot _ s).trans (onCtx p _ _ rfl)

theorem of_acts (h : Acts s t) : Claimed s t := by
  induction h with
  | refl s => exact refl s
  | trans _ _ ih ik => exact ih.trans ik
  | onCtx p f s same => exact onCtx p f s same
  | raise g f s => exact of_queue rfl rfl
  | count t s => exact of_queue rfl rfl
  | endClaim p b s => exact endClaim p b s
  | checkpoint p s => exact checkpoint p s

/-! ### The grant -/

theorem slots_grant (x : Slot) (p : Pos) (s : State) :
    (s.onEntry x fun e => { e with claimedBy := some p }).dir.entries.map DirEntry.slot =
      s.dir.entries.map DirEntry.slot := by
  rw [State.onEntry, State.onDir_dir, List.map_map]
  refine List.map_congr_left fun e _ => ?_
  dsimp only [Function.comp]
  split <;> rfl

/-- An unclaimed record is granted: no position held its card before. -/
theorem grant_held {e : DirEntry} (p : Pos) {s : State} (he : e ∈ s.dir.entries) (unclaimed : e.claimedBy = none)
    (once : s.slotsOnce) (held : s.claimsHeld) :
    (s.onEntry e.slot fun e => { e with claimedBy := some p }).claimsHeld ∧ ∀ q, ∀ k ∈ (s.ctx q).claim, k.slot ≠ e.slot := by
  have other : ∀ q, ∀ k ∈ (s.ctx q).claim, k.slot ≠ e.slot := by
    intro q k hk same
    obtain ⟨d, hd, slot, by'⟩ := held q k hk
    have : d = e := once.eq hd he (slot.trans same)
    rw [this, unclaimed] at by'
    nomatch by'
  refine ⟨fun q k hk => ?_, other⟩
  obtain ⟨d, hd, slot, by'⟩ := held q k hk
  exact ⟨d, List.mem_map.2 ⟨d, hd, if_neg (slot ▸ other q k hk)⟩, slot, by'⟩

theorem lookup_mem {s : State} {x : Serial} {e : DirEntry} (h : s.lookup x = some e) : e ∈ s.dir.entries :=
  List.mem_of_mem_filter (List.mem_of_find?_eq_some h)

theorem offerSettlement_ctx (x : Slot) (i : Image) (s : State) (q : Pos) : (s.offerSettlement x i).ctx q = s.ctx q := by
  unfold State.offerSettlement
  split <;> rfl

/-- A position acts on the grant of a record that no position held before. -/
theorem takeAnswer_granted (p : Pos) (cls : CardClass) (i : Image) {e : DirEntry} {s : State} (he : e ∈ s.dir.entries)
    (unclaimed : e.claimedBy = none) : Claimed s
      ((s.onEntry e.slot fun e => { e with claimedBy := some p }).takeAnswer p (.accepted e.slot cls i)) := by
  obtain h | ⟨j, h⟩ | ⟨f, claim, h⟩ :=
    (s.onEntry e.slot fun e => { e with claimedBy := some p }).takeAnswer_accepted p e.slot cls i
  · rw [h]
    exact ⟨slots_grant _ p s, fun once held => (grant_held p he unclaimed once held).1⟩
  · rw [h]
    refine ⟨(slots_release _ _).trans ((offerSettlement _ _ _).slots.trans (slots_grant _ p s)), fun once held => ?_⟩
    obtain ⟨granted, other⟩ := grant_held p he unclaimed once held
    have now : (s.onEntry e.slot fun e => { e with claimedBy := some p }).slotsOnce := by
      rw [State.slotsOnce, slots_grant]; exact once
    have claims : ∀ q, (((s.onEntry e.slot fun e => { e with claimedBy := some p }).onCtx p
        fun c => { c with outstanding := none }).ctx q).claim = (s.ctx q).claim := by
      intro q
      rw [State.ctx_onCtx]
      split
      · next same => cases same; rfl
      · rfl
    refine release_held (((onCtx p _ _ rfl).trans (offerSettlement e.slot j _)).held now granted) fun q k hk => ?_
    rw [offerSettlement_ctx, claims] at hk
    exact other q k hk
  · refine trans (t := (s.onEntry e.slot fun e => { e with claimedBy := some p }).onCtx p f)
      ⟨slots_grant _ p s, fun once held => ?_⟩ (of_acts h)
    obtain ⟨granted, other⟩ := grant_held p he unclaimed once held
    intro q k hk
    rw [State.ctx_onCtx] at hk
    split at hk
    · next same =>
      subst same
      obtain kept | ⟨m, new, slot⟩ := claim
      · exact granted p k (kept ▸ hk)
      · have : k = m := by
          rw [show ((f ((s.onEntry e.slot fun e => { e with claimedBy := some p }).ctx p)).settled).claim = some m from
            new] at hk
          exact (Option.some.inj hk).symm
        exact ⟨{ e with claimedBy := some p }, List.mem_map.2 ⟨e, he, if_pos rfl⟩, by rw [this, slot], rfl⟩
    · exact granted q k hk

theorem of_moves (h : Moves s t) : Claimed s t := by
  induction h with
  | acts h => exact of_acts h
  | trans _ _ ih ik => exact ih.trans ik
  | grant x p i s =>
    obtain ⟨e, j, found, unclaimed, -, h⟩ | ⟨other, h⟩ := s.completeClaim_cases x p i
    · rw [h]
      exact takeAnswer_granted p e.cls j (lookup_mem found) unclaimed
    · exact of_acts (h.trans (.takeAnswer_other p other _))
  | claims f s => exact of_queue rfl rfl
  | note x f s same => exact onEntry x f s same
  | offer x i origin s => exact offerValue_getD x i origin s
  | coalesce x i origin s => exact of_queue rfl rfl
  | read r s _ => exact requestRead r s

theorem of_runs {calls : Prop} (h : Runs calls s t) : Claimed s t := by
  induction h with
  | acts h => exact of_acts h
  | trans _ _ ih ik => exact ih.trans ik
  | moves _ h => exact of_moves h
  | port | tariff | settings | attention | line | drive | pwrlow | engine => exact of_queue rfl rfl

end Claimed

/-! ### A part without claims -/

/-- No claim is held, the engine is idle, and no line is driven. -/
structure State.dormant (s : State) : Prop where
  claims : ∀ p, (s.ctx p).claim = none
  idle : s.engine.idle
  lines : ∀ l, (s.line l).driven = false

namespace State.dormant

variable {s t : State}

theorem onCtx {p : Pos} {f : Position → Position} (h : s.dormant) (same : (f (s.ctx p)).claim = (s.ctx p).claim) :
    (s.onCtx p f).dormant := by
  refine ⟨fun q => ?_, h.idle, h.lines⟩
  rw [State.ctx_onCtx]
  split
  · next e => cases e; exact same.trans (h.claims p)
  · exact h.claims q

theorem of_acts (a : Acts s t) (h : s.dormant) : t.dormant := by
  induction a with
  | refl s => exact h
  | trans _ _ ih ik => exact ik (ih h)
  | onCtx p f s same => exact h.onCtx same
  | raise g f s => exact ⟨h.claims, h.idle, h.lines⟩
  | count t s => exact ⟨h.claims, h.idle, h.lines⟩
  | endClaim p b s =>
    have none : s.endClaim p b = s := by unfold State.endClaim; rw [h.claims p]
    rw [none]; exact h
  | checkpoint p s =>
    rw [State.checkpoint_of_none (h.claims p)]; exact h

theorem of_runs (r : Runs False s t) (h : s.dormant) : t.dormant := by
  induction r with
  | acts a => exact of_acts a h
  | trans _ _ ih ik => exact ik (ih h)
  | moves c => nomatch c
  | drive _ _ _ c => nomatch c
  | port | tariff | settings | attention | pwrlow => exact ⟨h.claims, h.idle, h.lines⟩
  | engine => exact ⟨h.claims, h.idle, h.lines⟩
  | line l f s undriven =>
    refine ⟨h.claims, h.idle, fun k => ?_⟩
    rw [State.line_onLine]
    split
    · next e =>
      cases e
      by_contra driven
      have was := undriven (by simpa using driven)
      rw [h.lines l] at was
      nomatch was
    · exact h.lines k

end State.dormant

end Sys2Proof.Machine
end

section
/-!
PROOFS. The laws of the directory under the store's own steps, the rebuild, the resets and the actions that place a slot,
and O58 assembled: every other command is made of the updates of `Runs`.
-/

namespace Sys2Proof.Machine

/-- A reset lasts, or the part waits in IN RESET for the start-up. -/
def State.asleep (s : State) : Prop := s.pins.released = false ∨ s.port.mode = .inReset

theorem State.slotsOnce_of_placed {s : State} (h : s.placed.Nodup) : s.slotsOnce :=
  (List.nodup_append.1 (List.nodup_append.1 h).1).1

namespace State.directorySound

variable {s t : State}

theorem once (d : s.directorySound) : s.slotsOnce := slotsOnce_of_placed d.slots

/-- Before a start-up nothing is indexed, so no claim is held. -/
theorem dormant (d : s.directorySound) (asleep : s.asleep) : s.dormant := by
  obtain ⟨placed, -, -, idle, lines⟩ := d.asleep asleep
  refine ⟨fun p => ?_, idle, lines⟩
  by_contra some
  obtain ⟨k, hk⟩ := Option.ne_none_iff_exists'.1 some
  obtain ⟨e, he, -⟩ := d.claims p k hk
  have : e.slot ∈ s.placed := by
    unfold State.placed
    exact List.mem_append_left _ (List.mem_append_left _ (List.mem_map_of_mem he))
  rw [placed] at this
  nomatch this

/-- The laws follow where no slot is placed anew and the claims are held; a part before its start-up must stay
dormant. -/
theorem of_places (d : s.directorySound) (h : Places s t) (claims : t.claimsHeld) (asleep : s.asleep → t.dormant) :
    t.directorySound where
  slots := by
    obtain ⟨l, perm, sub⟩ := h.placed
    exact perm.nodup_iff.1 (sub.nodup d.slots)
  serials := h.serials.nodup d.serials
  rebuild := fun r hr => by
    rw [h.rebuild] at hr
    obtain ⟨mode, released, below, fresh⟩ := d.rebuild r hr
    exact ⟨h.mode.trans mode, h.released.trans released, fun x hx => below x (h.placed.subset hx),
      fun x hx known => fresh x hx (h.serials.subset known)⟩
  requests := by rw [h.requests, h.rebuild]; exact d.requests
  served := h.served d.served
  asleep := fun still => by
    rw [h.released, h.mode] at still
    obtain ⟨placed, rebuild, ready, -, -⟩ := d.asleep still
    obtain ⟨-, idle, lines⟩ := asleep still
    refine ⟨?_, h.rebuild.trans rebuild, h.ready.trans ready, idle, lines⟩
    exact List.subperm_nil.1 (placed ▸ h.placed)
  claims := claims

theorem of_awake (d : s.directorySound) (h : Places s t) (claims : t.claimsHeld) (awake : ¬s.asleep) :
    t.directorySound := d.of_places h claims fun a => absurd a awake

end State.directorySound

theorem Runs.mono {calls more : Prop} (c : calls → more) {s t : State} (h : Runs calls s t) : Runs more s t := by
  induction h with
  | acts h => exact .acts h
  | trans _ _ ih ik => exact ih.trans ik
  | moves h m => exact .moves (c h) m
  | port f s h => exact .port f s h
  | tariff f s => exact .tariff f s
  | settings f s => exact .settings f s
  | attention f s => exact .attention f s
  | pwrlow b s => exact .pwrlow b s
  | engine n k s => exact .engine n k s
  | line l f s h => exact .line l f s h
  | drive l f s h => exact .drive l f s (c h)

namespace State.directorySound

variable {s t : State}

theorem of_runs {calls : Prop} (d : s.directorySound) (h : Runs calls s t) (awake : s.asleep → ¬calls) :
    t.directorySound :=
  d.of_places (Places.of_runs h) ((Claimed.of_runs h).held d.once d.claims) fun a =>
    (d.dormant a).of_runs (h.mono (awake a))

theorem awake_of_flight (d : s.directorySound) {f : Flight} (h : s.engine.flight = some f) : ¬s.asleep := by
  intro a
  obtain ⟨-, -, none, -⟩ := (d.dormant a).idle
  rw [h] at none
  nomatch none

theorem awake_of_reading (d : s.directorySound) {r : ReadRequest} (h : s.engine.reading = some r) : ¬s.asleep := by
  intro a
  obtain ⟨none, -⟩ := (d.dormant a).idle
  rw [h] at none
  nomatch none

theorem awake_of_waiting (d : s.directorySound) (h : s.engine.waiting ≠ []) : ¬s.asleep := fun a =>
  h (d.dormant a).idle.2.2.2

theorem awake_of_rebuild (d : s.directorySound) {b : Rebuild} (h : s.dir.rebuild = some b) : ¬s.asleep := by
  obtain ⟨mode, released, -⟩ := d.rebuild b h
  rintro (a | a)
  · rw [a] at released
    nomatch released
  · rw [a] at mode
    nomatch mode

/-- A rebuild runs in STARTING only. -/
theorem rebuild_none (d : s.directorySound) (h : s.port.mode ≠ .starting) : s.dir.rebuild = none := by
  by_contra some
  obtain ⟨b, hb⟩ := Option.ne_none_iff_exists'.1 some
  exact h (d.rebuild b hb).1

theorem requests_nil (d : s.directorySound) (h : s.dir.rebuild = none) : s.engine.rebuildRequests = [] := by
  obtain none | none := d.requests
  · exact none
  · rw [none, h]; rfl

theorem onStore (d : s.directorySound) (f : List (Slot × Record) → List (Slot × Record)) : (s.onStore f).directorySound :=
  { d with }

theorem onRecord (d : s.directorySound) (x : Slot) (f : Record → Record) : (s.onRecord x f).directorySound := d.onStore _

/-! ### Resets and the start-up -/

/-- A part whose volatile state is clear. -/
theorem of_clear (dir : s.dir = .reset) (engine : s.engine = .reset) (lines : ∀ l, s.line l = .reset)
    (positions : ∀ p, s.ctx p = .reset) : s.directorySound where
  slots := by simp [State.placed, dir, engine, Directory.reset, Engine.reset, Engine.erasing]
  serials := by simp [dir, Directory.reset]
  rebuild := by simp [dir, Directory.reset]
  requests := by simp [engine, Engine.reset, Engine.rebuildRequests]
  served := by simp [engine, Engine.reset]
  asleep := fun _ => ⟨by simp [State.placed, dir, engine, Directory.reset, Engine.reset, Engine.erasing], by rw [dir]; rfl,
    by rw [dir]; rfl, by rw [engine]; exact ⟨rfl, rfl, rfl, rfl⟩, fun l => by rw [lines]; rfl⟩
  claims := fun p k hk => by
    rw [positions] at hk
    nomatch hk

theorem clearVolatile (s : State) : s.clearVolatile.directorySound :=
  of_clear rfl rfl (fun l => by simp [State.line, State.clearVolatile, State.reset])
    fun p => by simp [State.ctx, State.clearVolatile, State.reset]

theorem pinReset (cut : Cut) (change : Pins → Pins) (s : State) : (s.pinReset cut change).directorySound :=
  of_clear rfl rfl (fun l => by simp [State.pinReset, State.line, State.clearVolatile, State.reset])
    fun p => by simp [State.pinReset, State.ctx, State.clearVolatile, State.reset]

theorem enterInReset (s : State) : s.enterInReset.directorySound :=
  of_clear rfl rfl (fun l => by simp [State.enterInReset, State.line, State.clearVolatile, State.reset])
    fun p => by simp [State.enterInReset, State.ctx, State.clearVolatile, State.reset]

/-- The rebuild asks for its read where none is in flight. -/
theorem rebuildAsks (d : s.directorySound) : s.rebuildAsks.directorySound := by
  unfold State.rebuildAsks
  split
  · next b hb =>
    split
    · exact d
    · next idle =>
      have reading : s.engine.reading = none := by simpa using idle
      obtain ⟨st, fl, c, n, rd, rl, h, entry, reads⟩ := s.requestRead_spec b.request
      obtain ⟨q, before, -, -⟩ | ⟨-, rfl, rfl⟩ := reads
      · rw [reading] at before
        nomatch before
      have awake := d.awake_of_rebuild hb
      have erasing : ({ s.engine with flight := fl, suspended := c, reading := some b.request } : Engine).erasing =
          s.engine.erasing := Engine.erasing_of_flight rfl entry
      rw [h]
      refine { d with slots := ?_, rebuild := ?_, requests := .inr ?_, served := ?_, asleep := ?_ }
      · show (s.dir.entries.map DirEntry.slot ++ s.dir.free ++ Engine.erasing _).Nodup
        rw [erasing]
        exact d.slots
      · show ∀ r ∈ s.dir.rebuild, _ ∧ _ ∧ (∀ x ∈ s.dir.entries.map DirEntry.slot ++ s.dir.free ++ Engine.erasing _, _) ∧ _
        rw [erasing]
        exact d.rebuild
      · have list := (d.served reading).1
        simp [Engine.rebuildRequests, list, hb, Rebuild.request]
      · nofun
      · exact fun a => absurd a awake
  · exact d

theorem rebuildAt_first (d : s.directorySound) (empty : s.placed = []) (rebuild : s.dir.rebuild = none)
    (mode : s.port.mode = .starting) (released : s.pins.released = true) :
    (s.rebuildAt 0 .identity).directorySound where
  slots := d.slots
  serials := d.serials
  rebuild := fun r hr => by
    cases hr
    refine ⟨mode, released, fun x hx => ?_, nofun⟩
    rw [show (s.rebuildAt 0 .identity).placed = [] from empty] at hx
    nomatch hx
  requests := .inl (d.requests_nil rebuild)
  served := d.served
  asleep := by
    rintro (a | a)
    · exact absurd (a.symm.trans released) (by decide)
    · exact absurd (a.symm.trans mode) (by decide)
  claims := d.claims

theorem startUp (d : s.directorySound) (empty : s.placed = []) (rebuild : s.dir.rebuild = none)
    (released : s.pins.released = true) : s.startUp.directorySound := by
  have begun : (s.onPort fun p => { p with mode := .starting }).directorySound := by
    refine { d with rebuild := fun r hr => ?_, asleep := ?_ }
    · rw [State.onPort_dir, rebuild] at hr
      nomatch hr
    · rintro (a | a)
      · exact absurd (a.symm.trans released) (by decide)
      · nomatch a
  have enabled : ∀ (ls : List LineIx) (t : State), Runs True t (ls.foldl (fun t l => t.enableLine l) t) := by
    intro ls
    induction ls with
    | nil => exact fun t => Runs.refl t
    | cons l ls ih => exact fun t => (Runs.enableLine trivial l t).trans (ih _)
  have runs := enabled allLines (s.onPort fun p => { p with mode := .starting })
  have places := Places.of_runs runs
  have sound := begun.of_runs runs (by
    rintro (a | a)
    · exact absurd (a.symm.trans released) (by decide)
    · nomatch a)
  refine rebuildAsks (rebuildAt_first sound ?_ (places.rebuild.trans rebuild) places.mode (places.released.trans released))
  exact List.subperm_nil.1 (empty ▸ places.placed)

end State.directorySound

end Sys2Proof.Machine
end

section
/-!
PROOFS. The laws of the directory under a completed read, the rebuild that it feeds, and the steps of the engine.
-/

namespace Sys2Proof.Machine

/-! ### The rebuild -/

/-- The laws of the directory, but for the reads that the rebuild has asked for. -/
structure State.indexSound (s : State) : Prop where
  slots : s.placed.Nodup
  serials : (s.dir.entries.map DirEntry.serial).Nodup
  rebuild : ∀ r ∈ s.dir.rebuild, s.port.mode = .starting ∧ s.pins.released = true ∧
    (∀ x ∈ s.placed, x < r.slot) ∧ ∀ x ∈ r.stage.serial, x ∉ s.dir.entries.map DirEntry.serial
  awake : ¬s.asleep
  claims : s.claimsHeld

/-- The laws while the rebuild is between slots: in STARTING, with slots below `n` placed only. -/
structure State.rebuilding (n : Nat) (s : State) : Prop where
  slots : s.placed.Nodup
  serials : (s.dir.entries.map DirEntry.serial).Nodup
  mode : s.port.mode = .starting
  released : s.pins.released = true
  below : ∀ x ∈ s.placed, x.val < n
  claims : s.claimsHeld

namespace State.rebuilding

variable {s : State} {n : Nat}

theorem awake (h : s.rebuilding n) : ¬s.asleep := by
  rintro (a | a)
  · exact absurd (a.symm.trans h.released) (by decide)
  · exact absurd (a.symm.trans h.mode) (by decide)

theorem of_directory (d : s.directorySound) {b : Rebuild} (h : s.dir.rebuild = some b) : s.rebuilding b.slot.val where
  slots := d.slots
  serials := d.serials
  mode := (d.rebuild b h).1
  released := (d.rebuild b h).2.1
  below := (d.rebuild b h).2.2.1
  claims := d.claims

theorem rebuildAt {x : Slot} (h : s.rebuilding x.val) (stage : RebuildStage)
    (fresh : ∀ y ∈ stage.serial, y ∉ s.dir.entries.map DirEntry.serial) : (s.rebuildAt x stage).indexSound where
  slots := h.slots
  serials := h.serials
  rebuild := fun r hr => by
    cases hr
    exact ⟨h.mode, h.released, h.below, fresh⟩
  awake := h.awake
  claims := h.claims

theorem rebuildNext {x : Slot} (h : s.rebuilding (x.val + 1)) : (s.rebuildNext x).indexSound := by
  unfold State.rebuildNext
  split
  · next more => exact rebuildAt (x := ⟨x.val + 1, more⟩) h _ nofun
  · refine ⟨h.slots, h.serials, nofun, ?_, h.claims⟩
    rintro (a | a)
    · exact absurd (a.symm.trans h.released) (by decide)
    · nomatch a

theorem onOrphans (h : s.rebuilding n) (f : Nat → Nat) :
    (s.onDir fun d => { d with orphans := f d.orphans }).rebuilding n := { h with }

theorem above {x : Slot} (h : s.rebuilding x.val) : s.rebuilding (x.val + 1) :=
  { h with below := fun y hy => Nat.lt_succ_of_lt (h.below y hy) }

theorem rebuildOrphan {x : Slot} (h : s.rebuilding x.val) : (s.rebuildOrphan x).indexSound :=
  (h.above.onOrphans (· + 1)).rebuildNext

theorem fresh {x : Slot} (h : s.rebuilding x.val) : x ∉ s.placed := fun hx => lt_irrefl _ (h.below x hx)

/-- The rebuild's slot joins the free slots. -/
theorem free {x : Slot} (h : s.rebuilding x.val) :
    (s.onDir fun d => { d with free := d.free ++ [x] }).rebuilding (x.val + 1) := by
  have perm : (s.onDir fun d => { d with free := d.free ++ [x] }).placed.Perm (x :: s.placed) := by
    show (s.dir.entries.map DirEntry.slot ++ (s.dir.free ++ [x]) ++ s.engine.erasing).Perm _
    rw [← List.append_assoc, List.append_assoc _ [x]]
    exact List.perm_middle
  refine { h with slots := ?_, below := fun y hy => ?_ }
  · exact perm.nodup_iff.2 (List.nodup_cons.2 ⟨h.fresh, h.slots⟩)
  · obtain rfl | hy := List.mem_cons.1 (perm.subset hy)
    · exact Nat.lt_succ_self _
    · exact Nat.lt_succ_of_lt (h.below y hy)

/-- The rebuild's slot is indexed. -/
theorem index {x : Slot} (h : s.rebuilding x.val) {e : DirEntry} (slot : e.slot = x)
    (new : e.serial ∉ s.dir.entries.map DirEntry.serial) :
    (s.onDir fun d => { d with entries := d.entries ++ [e] }).rebuilding (x.val + 1) := by
  have perm : (s.onDir fun d => { d with entries := d.entries ++ [e] }).placed.Perm (x :: s.placed) := by
    show ((s.dir.entries ++ [e]).map DirEntry.slot ++ s.dir.free ++ s.engine.erasing).Perm _
    rw [List.map_append, List.append_assoc, List.append_assoc, List.map_singleton, slot, List.singleton_append]
    exact List.perm_middle.trans (by unfold State.placed; rw [← List.append_assoc])
  refine { h with slots := ?_, serials := ?_, below := fun y hy => ?_, claims := fun p k hk => ?_ }
  · exact perm.nodup_iff.2 (List.nodup_cons.2 ⟨h.fresh, h.slots⟩)
  · show ((s.dir.entries ++ [e]).map DirEntry.serial).Nodup
    rw [List.map_append, List.nodup_append]
    exact ⟨h.serials, by simp, by simpa using fun a ha same => new (by simpa [← same] using ⟨a, ha, rfl⟩)⟩
  · obtain rfl | hy := List.mem_cons.1 (perm.subset hy)
    · exact Nat.lt_succ_self _
    · exact Nat.lt_succ_of_lt (h.below y hy)
  · obtain ⟨d, hd, rest⟩ := h.claims p k hk
    exact ⟨d, List.mem_append_left _ hd, rest⟩

/-- Nothing is placed anew, and the claims are held. -/
theorem of_places {t : State} (h : s.rebuilding n) (places : Places s t) (claimed : Claimed s t) : t.rebuilding n where
  slots := by
    obtain ⟨l, perm, sub⟩ := places.placed
    exact perm.nodup_iff.1 (sub.nodup h.slots)
  serials := places.serials.nodup h.serials
  mode := places.mode.trans h.mode
  released := places.released.trans h.released
  below := fun x hx => h.below x (places.placed.subset hx)
  claims := claimed.held (State.slotsOnce_of_placed h.slots) h.claims

end State.rebuilding

theorem State.lookup_none {s : State} {x : Serial} (h : (s.lookup x).isSome = false) :
    x ∉ s.dir.entries.map DirEntry.serial := by
  intro known
  obtain ⟨e, he, rfl⟩ := List.mem_map.1 known
  have chain : e ∈ s.dir.chain (bucket e.serial) := List.mem_filter.2 ⟨he, by simp⟩
  have none : s.lookup e.serial = none := by simpa using h
  exact absurd (List.find?_eq_none.1 none e chain) (by simp)

namespace State.indexSound

variable {s : State}

theorem rebuildIdentity {x : Slot} (h : s.rebuilding x.val) (o : ReadOutcome Identity) :
    (s.rebuildIdentity x o).indexSound := by
  unfold State.rebuildIdentity
  split
  · next i _ =>
    split
    · exact h.rebuildOrphan
    · next unknown =>
      refine h.rebuildAt _ fun y hy => ?_
      cases hy
      exact State.lookup_none (by simpa using unknown)
  · split
    · exact h.free.rebuildNext
    · exact h.rebuildOrphan

theorem rebuildIndex {x : Slot} (h : s.rebuilding x.val) {i : Identity}
    (new : i.serial ∉ s.dir.entries.map DirEntry.serial) (a b : Option (Image × Gen)) (corrected : Bool) :
    (s.rebuildIndex x i a b corrected).indexSound := by
  have indexed := h.index (e := rebuiltEntry x i (liveOf a b)) rfl new
  unfold State.rebuildIndex
  dsimp only
  refine State.rebuilding.rebuildNext ?_
  split
  · split
    · exact indexed.of_places (.offerValue_getD _ _ _ _) (.offerValue_getD _ _ _ _)
    · exact indexed
  · exact indexed.of_places (.of_acts (.raiseStoreFault _ _ _)) (.of_acts (.raiseStoreFault _ _ _))

end State.indexSound

/-! ### The reads that the rebuild has asked for -/

namespace Quiet

theorem raiseStoreFault (x : Slot) (cause : Option (EntryKind × Origin)) (s : State) :
    Quiet s (s.raiseStoreFault x cause) := ⟨rfl, rfl⟩

theorem rebuildNext (x : Slot) (s : State) : Quiet s (s.rebuildNext x) := by
  unfold State.rebuildNext
  split <;> exact ⟨rfl, rfl⟩

theorem onDir (f : Directory → Directory) (s : State) : Quiet s (s.onDir f) := ⟨rfl, rfl⟩

theorem rebuildOrphan (x : Slot) (s : State) : Quiet s (s.rebuildOrphan x) := (onDir _ s).trans (rebuildNext x _)

theorem rebuildIdentity (x : Slot) (o : ReadOutcome Identity) (s : State) : Quiet s (s.rebuildIdentity x o) := by
  unfold State.rebuildIdentity
  repeat' split
  · exact rebuildOrphan x s
  · exact onDir _ s
  · exact (onDir _ s).trans (rebuildNext x _)
  · exact rebuildOrphan x s

theorem rebuildValue (x : Slot) (o : ReadOutcome (Image × Gen)) (s : State) : Quiet s (s.rebuildValue x o) := by
  unfold State.rebuildValue
  split
  · exact onDir _ s
  · unfold State.rebuildIndex
    dsimp only
    refine trans ?_ (rebuildNext x _)
    repeat' split
    · exact (onDir _ s).trans (offerValue_getD _ _ _ _)
    · exact onDir _ s
    · exact (onDir _ s).trans (raiseStoreFault _ _ _)
  · exact refl s

end Quiet

/-- The next read is served: the laws follow from those of the index where the reads still listed are none of the
rebuild's, or its one. -/
theorem State.indexSound.serveNext {s : State} (h : s.indexSound)
    (list : s.engine.readList.filter (fun r => decide (r.who = .rebuild)) = [] ∨
      s.engine.readList.filter (fun r => decide (r.who = .rebuild)) = (s.dir.rebuild.map Rebuild.request).toList) :
    s.serveNext.directorySound := by
  have requests : s.serveNext.engine.rebuildRequests = s.engine.readList.filter fun r => decide (r.who = .rebuild) := by
    unfold State.serveNext Engine.rebuildRequests
    simp only [State.onEngine_engine]
    split
    · next r rest reads => simp [reads]
    · next reads => simp [reads]
  have erasing : s.serveNext.engine.erasing = s.engine.erasing := by
    unfold State.serveNext
    simp only [State.onEngine_engine]
    split <;> exact Engine.erasing_of_flight rfl rfl
  have placed : s.serveNext.placed = s.placed := by
    unfold State.placed
    rw [erasing]
    rfl
  exact {
    slots := by rw [placed]; exact h.slots
    serials := h.serials
    rebuild := by rw [placed]; exact h.rebuild
    requests := by rw [requests]; exact list
    served := by
      unfold State.serveNext
      simp only [State.onEngine_engine]
      split
      · nofun
      · next reads => exact fun _ => ⟨reads, rfl⟩
    asleep := fun a => absurd a h.awake
    claims := h.claims }

theorem State.directorySound.indexSound {s : State} (d : s.directorySound) (awake : ¬s.asleep) : s.indexSound :=
  ⟨d.slots, d.serials, d.rebuild, awake, d.claims⟩

theorem State.directorySound.serveNext {s : State} (d : s.directorySound) (awake : ¬s.asleep) :
    s.serveNext.directorySound := by
  refine (d.indexSound awake).serveNext ?_
  have sub : (s.engine.readList.filter fun r => decide (r.who = .rebuild)).Sublist s.engine.rebuildRequests := by
    unfold Engine.rebuildRequests
    rw [List.filter_append]
    exact List.sublist_append_right _ _
  obtain none | one := d.requests
  · exact .inl (List.sublist_nil.1 (none ▸ sub))
  · rw [one] at sub
    cases h : s.dir.rebuild with
    | none => exact .inl (List.sublist_nil.1 (by simpa [h] using sub))
    | some b =>
      rw [h] at sub
      obtain none | some := List.sublist_singleton.1 sub
      · exact .inl none
      · exact .inr some

/-! ### A completed read -/

/-- A read of the rebuild's goes to the rebuild at the slot and granule that it is at. -/
theorem State.directorySound.rebuild_of_reading {s : State} (d : s.directorySound) {r : ReadRequest}
    (reading : s.engine.reading = some r) (who : r.who = .rebuild) : ∃ b, s.dir.rebuild = some b ∧ r = b.request ∧
      s.engine.readList.filter (fun r => decide (r.who = .rebuild)) = [] := by
  have split : s.engine.rebuildRequests = r :: s.engine.readList.filter fun r => decide (r.who = .rebuild) := by
    simp [Engine.rebuildRequests, reading, who]
  obtain none | one := d.requests
  · rw [split] at none
    nomatch none
  · rw [split] at one
    cases h : s.dir.rebuild with
    | none => rw [h] at one; nomatch one
    | some b =>
      rw [h] at one
      obtain ⟨rfl, rest⟩ := List.cons.inj one
      exact ⟨b, rfl, rfl, rest⟩

theorem State.countCorrected_eq (corrected : Bool) (s : State) :
    s.countCorrected corrected = s.onEngine fun e => { e with corrected := (s.countCorrected corrected).engine.corrected } := by
  cases corrected <;> rfl

/-- The rebuild takes what its read has found. -/
theorem State.directorySound.rebuildRead {s : State} (d : s.directorySound) {b : Rebuild} (hb : s.dir.rebuild = some b)
    (none : s.engine.readList.filter (fun r => decide (r.who = .rebuild)) = []) :
    (s.deliverRead b.request).serveNext.directorySound := by
  have here : ∀ corrected, (s.countCorrected corrected).rebuilding b.slot.val := fun corrected => by
    rw [State.countCorrected_eq]
    exact { State.rebuilding.of_directory d hb with }
  have rest : ∀ corrected u, Quiet (s.countCorrected corrected) u → u.indexSound → u.serveNext.directorySound := by
    intro corrected u q h
    refine h.serveNext (.inl ?_)
    rw [q.engine, State.countCorrected_eq]
    exact none
  obtain ⟨x, stage⟩ := b
  obtain ⟨-, -, -, fresh⟩ := d.rebuild _ hb
  cases stage with
  | identity => exact rest _ _ (.rebuildIdentity x _ _) (.rebuildIdentity (here _) _)
  | copyA i =>
    refine rest (readValue ((s.record x).copy .a)).isCorrected _ (.rebuildValue x _ _) ?_
    have at' : ((s.countCorrected (readValue ((s.record x).copy .a)).isCorrected).dir.rebuild.map Rebuild.stage) =
        some (.copyA i) := by
      rw [State.countCorrected_eq, State.onEngine_dir, hb]; rfl
    show ((s.countCorrected (readValue ((s.record x).copy .a)).isCorrected).rebuildValue x _).indexSound
    unfold State.rebuildValue
    simp only [at']
    refine (here _).rebuildAt _ fun y hy => ?_
    rw [State.countCorrected_eq]
    exact fresh y hy
  | copyB i a corrected =>
    refine rest (readValue ((s.record x).copy .b)).isCorrected _ (.rebuildValue x _ _) ?_
    have at' : ((s.countCorrected (readValue ((s.record x).copy .b)).isCorrected).dir.rebuild.map Rebuild.stage) =
        some (.copyB i a corrected) := by
      rw [State.countCorrected_eq, State.onEngine_dir, hb]; rfl
    show ((s.countCorrected (readValue ((s.record x).copy .b)).isCorrected).rebuildValue x _).indexSound
    unfold State.rebuildValue
    simp only [at']
    refine .rebuildIndex (here _) ?_ _ _ _
    rw [State.countCorrected_eq]
    exact fresh _ rfl

theorem Runs.deliverRead {r : ReadRequest} (other : r.who ≠ .rebuild) (s : State) : Runs True s (s.deliverRead r) := by
  have identity : ∀ o t, Runs True t (t.identityRead r o) := by
    intro o t
    unfold State.identityRead
    split
    · next who => exact absurd who other
    · exact actionIdentity trivial o t
    · exact refl t
  have value : ∀ c o t, Runs True t (t.valueRead r c o) := by
    intro c o t
    unfold State.valueRead
    split
    · next who => exact absurd who other
    · exact actionValue trivial c o t
    · exact moves trivial (.claimRead _ c o t)
  unfold State.deliverRead
  dsimp only
  split
  · exact (countCorrected _ s).trans (identity _ _)
  · exact (countCorrected _ s).trans (value _ _ _)
  · exact (countCorrected _ s).trans (value _ _ _)

theorem State.directorySound.readComplete {s : State} (d : s.directorySound) (change : CellChange) :
    (s.readComplete change).directorySound := by
  unfold State.readComplete
  dsimp only
  split
  · exact d
  · next r reading =>
    have asked := d.rebuildAsks
    have changed := asked.onRecord r.slot fun x => x.after r.granule change
    have awake : ¬State.asleep (s.rebuildAsks.onRecord r.slot fun x => x.after r.granule change) :=
      asked.awake_of_reading reading
    by_cases who : r.who = .rebuild
    · obtain ⟨b, hb, rfl, none⟩ := changed.rebuild_of_reading reading who
      exact changed.rebuildRead hb none
    · have runs := Runs.deliverRead who (s.rebuildAsks.onRecord r.slot fun x => x.after r.granule change)
      refine (changed.of_runs runs fun a => absurd a awake).serveNext ?_
      have places := Places.of_runs runs
      rintro (a | a)
      · exact awake (.inl (places.released.symm.trans a))
      · exact awake (.inr (places.mode.symm.trans a))

end Sys2Proof.Machine
end

section
/-!
PROOFS. The laws of the directory under the engine's steps and the actions that place a slot, and O58.
-/

namespace Sys2Proof.Machine

/-! ### The engine's steps -/

@[simp] theorem State.countCorrected_flight (corrected : Bool) (s : State) :
    (s.countCorrected corrected).engine.flight = s.engine.flight := by
  rw [State.countCorrected_eq]
  rfl

@[simp] theorem State.countVerify_flight (r : Record) (s : State) : (s.countVerify r).engine.flight = s.engine.flight := by
  simp [State.countVerify]

/-- No slot is placed anew, and the claims that are held stay so. -/
structure Lawful (s t : State) : Prop where
  places : Places s t
  claimed : Claimed s t

namespace Lawful

variable {s t u : State}

theorem refl (s : State) : Lawful s s := ⟨.refl s, .refl s⟩

theorem trans (h : Lawful s t) (k : Lawful t u) : Lawful s u := ⟨h.places.trans k.places, h.claimed.trans k.claimed⟩

theorem of_runs {calls : Prop} (h : Runs calls s t) : Lawful s t := ⟨.of_runs h, .of_runs h⟩

theorem of_moves (h : Moves s t) : Lawful s t := of_runs (.moves trivial h)

theorem directorySound (h : Lawful s t) (d : s.directorySound) (awake : ¬s.asleep) : t.directorySound :=
  d.of_awake h.places (h.claimed.held d.once d.claims) awake

theorem onRecord (x : Slot) (f : Record → Record) (s : State) : Lawful s (s.onRecord x f) :=
  ⟨.of_waiting rfl rfl rfl rfl rfl rfl rfl, .of_queue rfl rfl⟩

/-- The waiting entries and the flight change, and no slot joins those that are erased. -/
theorem onEngine {f : Engine → Engine} (erasing : (f s.engine).erasing.Subperm s.engine.erasing)
    (reads : (f s.engine).reading = s.engine.reading ∧ (f s.engine).readList = s.engine.readList ∧
      (f s.engine).suspended = s.engine.suspended) : Lawful s (s.onEngine f) := by
  obtain ⟨reading, list, suspended⟩ := reads
  refine ⟨⟨?_, .refl _, rfl, rfl, rfl, rfl, ?_, ?_⟩, .of_queue rfl rfl⟩
  · exact (List.subperm_append_left _).2 erasing
  · show (f s.engine).rebuildRequests = _
    rw [Engine.rebuildRequests, reading, list]
    rfl
  · show _ → (f s.engine).reading = none → (f s.engine).readList = [] ∧ (f s.engine).suspended = false
    rw [reading, list, suspended]
    exact id

theorem countCorrected (corrected : Bool) (s : State) : Lawful s (s.countCorrected corrected) :=
  of_runs (.countCorrected (calls := True) corrected s)

theorem countVerify (r : Record) (s : State) : Lawful s (s.countVerify r) :=
  ((countCorrected _ s).trans (countCorrected _ _)).trans (countCorrected _ _)

theorem endFlight (s : State) : Lawful s s.endFlight := by
  refine onEngine ?_ ⟨rfl, rfl, rfl⟩
  refine List.Sublist.subperm (List.Sublist.map _ (List.Sublist.filter _ ?_))
  exact List.Sublist.append (.refl _) (List.nil_sublist _)

theorem putBack {e : QueueEntry} (h : e.isErase = false) (s : State) : Lawful s (s.putBack e) := by
  refine onEngine ?_ ⟨rfl, rfl, rfl⟩
  have : ({ e with attempts := e.attempts + 1 } : QueueEntry).isErase = false := h
  simp only [Engine.erasing, List.cons_append, List.filter_cons, this, Bool.false_eq_true, if_false]
  exact .refl _

theorem moveToHead (x : Slot) (attempts : Nat) (s : State) : Lawful s (s.moveToHead x attempts) := by
  refine onEngine ?_ ⟨rfl, rfl, rfl⟩
  have moved : (((s.engine.waiting.filter fun e => e.isValue && e.slot == x).map fun e =>
      { e with attempts := attempts }).filter QueueEntry.isErase) = [] := by
    rw [List.filter_eq_nil_iff]
    intro e he
    obtain ⟨w, hw, rfl⟩ := List.mem_map.1 he
    obtain ⟨-, mine⟩ := List.mem_filter.1 hw
    rw [show ({ w with attempts := attempts } : QueueEntry).isErase = w.isErase from rfl,
      QueueEntry.isErase_of_isValue (Bool.and_eq_true_iff.1 mine).1]
    decide
  have stay : ((s.engine.waiting.filter fun e => !(e.isValue && e.slot == x)).filter QueueEntry.isErase) =
      s.engine.waiting.filter QueueEntry.isErase := by
    rw [List.filter_filter]
    refine List.filter_congr fun e _ => ?_
    cases h : e.isValue
    · simp
    · simp [QueueEntry.isErase_of_isValue h]
  simp only [Engine.erasing, List.filter_append, List.map_append, moved, stay, List.nil_append]
  exact .refl _

theorem begin {e : QueueEntry} (step : FlightStep) {s : State} (flying : s.engine.flight.map Flight.entry = some e) :
    Lawful s (s.begin e step) := by
  refine (onRecord e.slot _ s).trans (onEngine ?_ ⟨rfl, rfl, rfl⟩)
  have same : Engine.erasing { s.engine with flight := some { entry := e, step := step, progress := step.first } } =
      s.engine.erasing := Engine.erasing_of_flight rfl flying.symm
  show (Engine.erasing { s.engine with flight := _ }).Subperm s.engine.erasing
  rw [same]

/-- The head of the queue goes in flight. -/
theorem start {e : QueueEntry} (step : FlightStep) {s : State} {rest : List QueueEntry}
    (waiting : s.engine.waiting = e :: rest) (flight : s.engine.flight = none) : Lawful s (s.start e step) := by
  have swap : s.start e step = (s.onRecord e.slot (step.cells step.first)).onEngine fun g =>
      { g with waiting := g.waiting.drop 1, flight := some { entry := e, step := step, progress := step.first } } := rfl
  rw [swap]
  refine (onRecord e.slot _ s).trans (onEngine ?_ ⟨rfl, rfl, rfl⟩)
  show (Engine.erasing { s.engine with waiting := _, flight := _ }).Subperm s.engine.erasing
  have after : (s.onRecord e.slot (step.cells step.first)).engine.waiting.drop 1 = rest := by
    show s.engine.waiting.drop 1 = rest
    rw [waiting]
    rfl
  simp only [Engine.erasing, waiting, flight, after, Option.map_some, Option.map_none, Option.toList_some,
    Option.toList_none, List.append_nil]
  exact List.Perm.subperm (List.Perm.map _ (List.Perm.filter _ (List.perm_append_singleton e rest)))

theorem offerRefresh (x : Slot) (s : State) : Lawful s (s.offerRefresh x) := of_moves (.offerRefresh x s)

theorem noteLive (x : Slot) (c : Copy) (g : Gen) (s : State) : Lawful s (s.noteLive x c g) :=
  of_moves (.noteLive x c g s)

theorem wearOut (x : Slot) (s : State) : Lawful s (s.wearOut x) := of_moves (.note x _ s fun _ => ⟨rfl, rfl, rfl⟩)

/-- The condition and the live copy of a record are written. -/
theorem setRecord (x : Slot) (c : Condition) (live : Option (Copy × Gen)) (s : State) :
    Lawful s (s.onEntry x fun d => { d with condition := c, live := live }) :=
  of_moves (.note x _ s fun _ => ⟨rfl, rfl, rfl⟩)

theorem raiseStoreFault (x : Slot) (cause : Option (EntryKind × Origin)) (s : State) :
    Lawful s (s.raiseStoreFault x cause) := of_moves (.acts (.raiseStoreFault x cause s))

theorem valueFailed {e : QueueEntry} (value : e.isErase = false) (s : State) : Lawful s (s.valueFailed e) := by
  unfold State.valueFailed
  dsimp only
  repeat' split
  · exact ((endFlight s).trans (wearOut _ _)).trans (raiseStoreFault _ _ _)
  · exact (endFlight s).trans (moveToHead _ _ _)
  · exact (endFlight s).trans (putBack value _)

theorem valueWritten (x : Slot) (c : Copy) (g : Gen) (corrected : Bool) (s : State) :
    Lawful s (s.valueWritten x c g corrected) := by
  have noted : Lawful s (s.noteLive x c g).endFlight := (noteLive x c g s).trans (endFlight _)
  unfold State.valueWritten
  cases corrected
  · exact noted
  · exact noted.trans (offerRefresh x _)

theorem issueFailed (e : QueueEntry) (s : State) : Lawful s (s.issueFailed e) :=
  ((endFlight s).trans (setRecord _ _ _ _)).trans (raiseStoreFault _ _ _)

/-- The slots that the engine is to erase, where the entry in flight is one that erases. -/
theorem erasing_of_flight {s : State} {f : Flight} (flying : s.engine.flight = some f) (erases : f.entry.isErase = true) :
    s.engine.erasing = (s.engine.waiting.filter QueueEntry.isErase).map QueueEntry.slot ++ [f.entry.slot] := by
  simp [Engine.erasing, flying, erases]

/-- An erased slot is free. -/
theorem erased {s : State} {f : Flight} (flying : s.engine.flight = some f) (erases : f.entry.isErase = true) :
    Lawful s (s.endFlight.onDir fun d => { d with free := d.free ++ [f.entry.slot], orphans := d.orphans - 1 }) := by
  refine ⟨⟨?_, .refl _, rfl, rfl, rfl, rfl, rfl, id⟩, .of_queue rfl rfl⟩
  show (s.dir.entries.map DirEntry.slot ++ (s.dir.free ++ [f.entry.slot]) ++
    (((s.engine.waiting ++ []).filter QueueEntry.isErase).map QueueEntry.slot)).Subperm
    (s.dir.entries.map DirEntry.slot ++ s.dir.free ++ s.engine.erasing)
  rw [erasing_of_flight flying erases, List.append_nil, ← List.append_assoc, List.append_assoc _ [f.entry.slot]]
  exact ((List.perm_append_left_iff _).2 List.perm_append_comm).subperm

/-- An erase that has failed waits again. -/
theorem eraseAgain {s : State} {f : Flight} (flying : s.engine.flight = some f) (erases : f.entry.isErase = true) :
    Lawful s (s.endFlight.putBack f.entry) := by
  show Lawful s (s.onEngine fun g => { g with
    waiting := { f.entry with attempts := f.entry.attempts + 1 } :: g.waiting, flight := none })
  refine onEngine ?_ ⟨rfl, rfl, rfl⟩
  have again : ({ f.entry with attempts := f.entry.attempts + 1 } : QueueEntry).isErase = true := erases
  rw [erasing_of_flight flying erases]
  simp only [Engine.erasing, Option.map_none, Option.toList_none, List.append_nil, List.filter_cons, again, if_true,
    List.map_cons]
  exact (List.perm_append_singleton _ _).symm.subperm

end Lawful

namespace State.directorySound

variable {s : State}

theorem entryStart (d : s.directorySound) : s.entryStart.directorySound := by
  unfold State.entryStart
  split
  · exact d
  · next ready =>
    have flight : s.engine.flight = none := by
      by_contra h
      exact ready (.inr (.inr (Option.isSome_iff_ne_none.2 h)))
    split
    · exact d
    · next e rest waiting =>
      have awake := d.awake_of_waiting (by simp [waiting])
      repeat' split
      · exact (Lawful.start _ waiting flight).directorySound d awake
      · exact d
      · exact (Lawful.start _ waiting flight).directorySound d awake
      · exact (Lawful.start _ waiting flight).directorySound d awake
      · exact (Lawful.start _ waiting flight).directorySound d awake

theorem valueWriteComplete (d : s.directorySound) (sound : s.engine.sound) (left : Granule RawValue) :
    (s.valueWriteComplete left).directorySound := by
  unfold State.valueWriteComplete
  split
  · next f stepping =>
    obtain ⟨-, flying⟩ := State.stepping_eq_some.1 stepping
    have awake := d.awake_of_flight flying
    split
    · next c g step =>
      have value : f.entry.isErase = false := by
        have matched := (sound.2.2.1 f flying).1
        rw [Flight.matched_iff, step] at matched
        obtain ⟨i, work⟩ := matched
        simp [QueueEntry.isErase, work]
      refine Lawful.directorySound ?_ d awake
      dsimp only
      split
      · exact ((Lawful.onRecord _ _ s).trans (.countCorrected _ _)).trans (.valueWritten _ _ _ _ _)
      · refine Lawful.trans ?_ (.valueFailed value _)
        split
        · exact ((Lawful.onRecord _ _ s).trans (.countCorrected _ _)).trans (.offerRefresh _ _)
        · exact (Lawful.onRecord _ _ s).trans (.countCorrected _ _)
    · exact d
  · exact d

theorem issueStepComplete (d : s.directorySound) (left : Record) : (s.issueStepComplete left).directorySound := by
  unfold State.issueStepComplete
  split
  · next f stepping =>
    obtain ⟨-, flying⟩ := State.stepping_eq_some.1 stepping
    have entry : s.engine.flight.map Flight.entry = some f.entry := by rw [flying]; rfl
    refine Lawful.directorySound ?_ d (d.awake_of_flight flying)
    dsimp only
    split
    · split
      · refine ((Lawful.onRecord _ _ s).trans (.countVerify _ _)).trans (.begin _ ?_)
        rw [State.countVerify_flight]
        exact entry
      · exact ((Lawful.onRecord _ _ s).trans (.countVerify _ _)).trans (.issueFailed _ _)
    · split
      · refine ((Lawful.onRecord _ _ s).trans (.countCorrected _ _)).trans (.begin _ ?_)
        rw [State.countCorrected_flight]
        exact entry
      · exact ((Lawful.onRecord _ _ s).trans (.countCorrected _ _)).trans (.issueFailed _ _)
    · split
      · exact (((Lawful.onRecord _ _ s).trans (.countCorrected _ _)).trans (.endFlight _)).trans (.setRecord _ _ _ _)
      · exact ((Lawful.onRecord _ _ s).trans (.countCorrected _ _)).trans (.issueFailed _ _)
    · exact Lawful.refl s
  · exact d

/-- The slot of an erase that ends stays placed: free, or waiting to be erased again. -/
theorem eraseComplete (d : s.directorySound) (sound : s.engine.sound) (left : Record) :
    (s.eraseComplete left).directorySound := by
  unfold State.eraseComplete
  split
  · next f stepping =>
    obtain ⟨-, flying⟩ := State.stepping_eq_some.1 stepping
    have awake := d.awake_of_flight flying
    dsimp only
    split
    · next step =>
      have erases : f.entry.isErase = true := by
        have matched := (sound.2.2.1 f flying).1
        rw [Flight.matched_iff, step] at matched
        obtain work | work := matched <;> simp [QueueEntry.isErase, work]
      have read : Lawful s ((s.onRecord f.entry.slot fun _ => s.found f left).countVerify (s.found f left)) :=
        (Lawful.onRecord _ _ s).trans (.countVerify _ _)
      have still : ((s.onRecord f.entry.slot fun _ => s.found f left).countVerify (s.found f left)).engine.flight =
          some f := by
        rw [State.countVerify_flight]
        exact flying
      refine Lawful.directorySound (read.trans ?_) d awake
      split
      · exact .erased still erases
      · split
        · exact (Lawful.endFlight _).trans (.raiseStoreFault _ _ _)
        · exact .eraseAgain still erases
    · exact d
  · exact d

/-! ### The actions that place a slot -/

theorem not_asleep_of_running (released : s.pins.released = true) (mode : s.port.mode = .running) : ¬s.asleep := by
  rintro (a | a)
  · exact absurd (a.symm.trans released) (by decide)
  · exact absurd (a.symm.trans mode) (by decide)

theorem perm_cons_filter_ne {x : Slot} {l : List Slot} (once : l.Nodup) (h : x ∈ l) :
    l.Perm (x :: l.filter (· ≠ x)) := by
  have erase := once.erase_eq_filter x
  have same : l.filter (· ≠ x) = l.filter (· != x) := List.filter_congr fun y _ => by simp [bne, Bool.beq_eq_decide_eq]
  rw [same, ← erase]
  exact List.perm_cons_erase h

/-- An entry that erases its slot joins the queue. -/
theorem erasing_join {e : Engine} {w : QueueEntry} (h : w.isErase = true) :
    (Engine.erasing { e with waiting := e.waiting ++ [w] }).Perm (w.slot :: e.erasing) := by
  unfold Engine.erasing
  rw [List.append_assoc]
  refine (List.Perm.map _ (List.Perm.filter _ List.perm_middle)).trans ?_
  rw [List.filter_cons_of_pos h, List.map_cons]
  exact .refl _

theorem joinQueue_asleep {e : QueueEntry} (h : (s.joinQueue e).asleep) : s.asleep := by
  rcases h with a | a
  · exact .inl a
  · exact .inr ((Places.markAppeared_mode _ _).symm.trans a)

theorem issueInto (d : s.directorySound) (awake : ¬s.asleep) (mode : s.port.mode = .running) {x : Slot}
    (free : x ∈ s.dir.free) (new : s.port.staging.serial ∉ s.dir.entries.map DirEntry.serial) :
    (s.issueInto x).directorySound := by
  have none := d.rebuild_none (by rw [mode]; decide)
  have erasing : (s.issueInto x).engine.erasing = s.engine.erasing := Engine.erasing_join rfl
  have perm : (s.issueInto x).placed.Perm s.placed := by
    have taken := perm_cons_filter_ne (List.nodup_append.1 (List.nodup_append.1 d.slots).1).2.1 free
    show ((s.dir.entries ++ [_]).map DirEntry.slot ++ s.dir.free.filter (· ≠ x) ++ (s.issueInto x).engine.erasing).Perm _
    unfold State.placed
    rw [erasing, List.map_append, List.append_assoc (s.dir.entries.map _)]
    exact (List.perm_append_right_iff _).2 ((List.perm_append_left_iff _).2 taken.symm)
  exact {
    slots := perm.nodup_iff.2 d.slots
    serials := by
      show ((s.dir.entries ++ [_]).map DirEntry.serial).Nodup
      rw [List.map_append, List.nodup_append]
      exact ⟨d.serials, by simp, by simpa using fun a ha same => new (by simpa [← same] using ⟨a, ha, rfl⟩)⟩
    rebuild := fun r hr => by
      rw [show (s.issueInto x).dir.rebuild = s.dir.rebuild from rfl, none] at hr
      nomatch hr
    requests := .inl (d.requests_nil none)
    served := d.served
    asleep := fun a => absurd (joinQueue_asleep a) awake
    claims := fun p k hk => by
      obtain ⟨e, he, rest⟩ := d.claims p k hk
      exact ⟨e, List.mem_append_left _ he, rest⟩ }

/-- A record that no position holds is unlinked, and its slot waits to be erased. -/
theorem retireRecord (d : s.directorySound) (awake : ¬s.asleep) {e : DirEntry} (he : e ∈ s.dir.entries)
    (unclaimed : e.claimedBy = none) : (s.retireRecord e.slot).directorySound := by
  have erasing : (s.retireRecord e.slot).engine.erasing.Perm (e.slot :: s.engine.erasing) := erasing_join rfl
  have perm : (s.retireRecord e.slot).placed.Perm s.placed := by
    have taken := perm_cons_filter_ne d.once (List.mem_map_of_mem (f := DirEntry.slot) he)
    rw [List.filter_map] at taken
    show ((s.dir.entries.filter fun d => d.slot ≠ e.slot).map DirEntry.slot ++ s.dir.free ++
      (s.retireRecord e.slot).engine.erasing).Perm (s.dir.entries.map DirEntry.slot ++ s.dir.free ++ s.engine.erasing)
    rw [List.append_assoc, List.append_assoc]
    refine ((List.perm_append_left_iff _).2 (((List.perm_append_left_iff _).2 erasing).trans List.perm_middle)).trans ?_
    exact List.perm_middle.trans ((List.perm_append_right_iff _).2 taken.symm)
  have places : Places s (s.retireRecord e.slot) :=
    ⟨perm.subperm, List.filter_sublist.map _, rfl, rfl, Places.markAppeared_mode _ _, rfl, rfl, id⟩
  refine d.of_awake places (fun p k hk => ?_) awake
  obtain ⟨m, hm, slot, by'⟩ := d.claims p k hk
  refine ⟨m, List.mem_filter.2 ⟨hm, ?_⟩, slot, by'⟩
  have other : m.slot ≠ e.slot := by
    intro same
    rw [d.once.eq hm he same, unclaimed] at by'
    nomatch by'
  simpa using other

/-- A slot that is neither indexed nor free nor to be erased waits to be erased. -/
theorem joinErase (d : s.directorySound) (awake : ¬s.asleep) (mode : s.port.mode = .running) {w : QueueEntry}
    (erases : w.isErase = true) (away : w.slot ∉ s.placed) : (s.joinQueue w).directorySound := by
  have none := d.rebuild_none (by rw [mode]; decide)
  have perm : (s.joinQueue w).placed.Perm (w.slot :: s.placed) :=
    ((List.perm_append_left_iff _).2 (erasing_join erases)).trans List.perm_middle
  exact { d with
    slots := perm.nodup_iff.2 (List.nodup_cons.2 ⟨away, d.slots⟩)
    rebuild := fun r hr => by
      rw [show (s.joinQueue w).dir.rebuild = s.dir.rebuild from rfl, none] at hr
      nomatch hr
    requests := .inl (d.requests_nil none)
    asleep := fun a => absurd (joinQueue_asleep a) awake }

end State.directorySound

end Sys2Proof.Machine
end

section
/-!
PROOFS. O58 assembled: the commands made of `Runs`, those that do nothing before the start-up, and the others one by
one.
-/

namespace Sys2Proof.Machine

/-! ### Before the start-up -/

theorem State.asleep_mode {s : State} (h : s.asleep) (released : s.pins.released = true) : s.port.mode = .inReset := by
  obtain reset | mode := h
  · rw [reset] at released; nomatch released
  · exact mode

/-- A frame that only RUNNING serves is answered at most. -/
theorem Runs.takeFrame_of_asleep {act : State → State} {s : State} (asleep : s.asleep)
    (refused : ∀ t : State, t.port.mode = .inReset → Runs False t (act t)) : Runs False s (Machine.takeFrame act s) := by
  unfold Machine.takeFrame
  dsimp only
  repeat' split
  · exact refl s
  · next awake _ =>
    have released : s.pins.released = true := by simpa [State.inReset] using awake
    exact (endTransfer true s).trans (refused _ (State.asleep_mode asleep released))
  · exact endTransfer true s

theorem Runs.whenRunning_of_inReset {act : State → State} {t : State} (mode : t.port.mode = .inReset) :
    Runs False t (Machine.whenRunning act t) := by
  rw [whenRunning_of_other (by rw [mode]; decide)]
  exact answer _ _ t

theorem Runs.latched_of_inReset {act : State → State} {t : State} (mode : t.port.mode = .inReset) :
    Runs False t (Machine.latched act t) := by
  unfold Machine.latched
  rw [if_pos (by rw [mode]; decide)]
  exact answerLatched _ _ t

/-- Before the start-up the commands that may call for a read, grant a claim or start a line do not. -/
theorem Runs.of_asleep {c : Instr} (calls : mayCall c = true) {s : State} (asleep : s.asleep)
    (lines : ∀ l, (s.line l).driven = false) : ∃ t, exec c s = .next t ∧ Runs False s t := by
  have latched : ∀ act, Runs False s (Machine.takeFrame (Machine.latched act) s) := fun act =>
    takeFrame_of_asleep asleep fun t mode => latched_of_inReset mode
  have served : ∀ act, Runs False s (Machine.takeFrame (Machine.whenRunning act) s) := fun act =>
    takeFrame_of_asleep asleep fun t mode => whenRunning_of_inReset mode
  cases c with
  | credit | setExpiry | block | unblock => exact ⟨_, rfl, latched _⟩
  | queryCard | querySlot | enableLine _ => exact ⟨_, rfl, served _⟩
  | slotWindowClose l =>
    refine ⟨_, rfl, ?_⟩
    unfold Machine.unlessReset
    split
    · exact refl s
    · unfold State.windowClose
      have undriven := lines l
      dsimp only
      split
      · rw [undriven]
        exact refl s
      · exact refl s
  | _ => nomatch calls

namespace State.directorySound

variable {s : State}

theorem endTransfer (d : s.directorySound) (addressed : Bool) : (s.endTransfer addressed).directorySound := { d with }

/-! ### The taking of a frame -/

theorem takeFrame {act : State → State} (d : s.directorySound)
    (h : ∀ t : State, t.directorySound → t.pins.released = true → (act t).directorySound) :
    (takeFrame act s).directorySound := by
  unfold Machine.takeFrame
  dsimp only
  repeat' split
  · exact d
  · next awake _ =>
    have released : s.pins.released = true := by simpa [State.inReset] using awake
    exact h _ (d.endTransfer true) released
  · exact d.endTransfer true

theorem answerLatched (d : s.directorySound) (code : ReplyCode) (data : Word) : (s.answerLatched code data).directorySound :=
  { d with }

theorem answer (d : s.directorySound) (code : ReplyCode) (data : Word) : (s.answer code data).directorySound := { d with }

theorem latched {act : State → State} (d : s.directorySound)
    (h : s.port.mode = .running → (act s).directorySound) : (latched act s).directorySound := by
  unfold Machine.latched
  repeat' split
  · exact d.answerLatched _ _
  · next running _ => exact h (by simpa using running)
  · exact d.answerLatched _ _

theorem leaveReset (d : s.directorySound) (reset : s.pins.released = false) (change : Pins → Pins) :
    (s.leaveReset change).directorySound := by
  obtain ⟨empty, rebuild, ready, idle, lines⟩ := d.asleep (.inl reset)
  have changed : (s.onPins change).directorySound := { d with
    rebuild := fun r hr => by
      rw [State.onPins_dir, rebuild] at hr
      nomatch hr
    asleep := fun _ => ⟨empty, rebuild, ready, idle, lines⟩ }
  unfold State.leaveReset
  dsimp only
  split
  · next released => exact changed.startUp empty rebuild released
  · exact changed

theorem beginDrain (d : s.directorySound) (released : s.pins.released = true) (mode : s.port.mode = .running) :
    s.beginDrain.directorySound := by
  have none := d.rebuild_none (by rw [mode]; decide)
  have awake : ¬State.asleep (s.onPort fun p => { p with mode := .draining }) := by
    rintro (a | a)
    · exact absurd (a.symm.trans released) (by decide)
    · nomatch a
  have begun : (s.onPort fun p => { p with mode := .draining }).directorySound := { d with
    rebuild := fun r hr => by
      rw [State.onPort_dir, none] at hr
      nomatch hr
    asleep := fun a => absurd a awake }
  have stopped : ∀ (ls : List LineIx) (t : State), Runs True t (ls.foldl (fun t l => t.disableLine l) t) := by
    intro ls
    induction ls with
    | nil => exact fun t => Runs.refl t
    | cons l ls ih => exact fun t => (Runs.disableLine l t).trans (ih _)
  exact begun.of_runs (stopped allLines _) fun a => absurd a awake

/-! ### ISSUE, RETIRE and ERASE SLOT -/

theorem issue (d : s.directorySound) (released : s.pins.released = true) (mode : s.port.mode = .running)
    (unknown : ¬(s.lookup s.port.staging.serial).isSome = true) : (match s.issueSlot with
      | none => s.answerLatched .storeFull 0
      | some x => if s.hasRoom then (s.issueInto x).answerLatched .ok (toWord x.val)
        else s.answerLatched .queueFull 0).directorySound := by
  split
  · exact d.answerLatched _ _
  · next x slot =>
    split
    · exact (d.issueInto (not_asleep_of_running released mode) mode (List.mem_of_find?_eq_some slot)
        (State.lookup_none (by simpa using unknown))).answerLatched _ _
    · exact d.answerLatched _ _

theorem retire (d : s.directorySound) (released : s.pins.released = true) (mode : s.port.mode = .running) :
    (s.onUnlockedCard fun e s =>
      if s.inUse e then s.answerLatched .inUse 0
      else if s.hasEntry e.slot then s.answerLatched .pending 0
      else if s.hasRoom then (s.retireRecord e.slot).answerLatched .ok (toWord e.slot.val)
      else s.answerLatched .queueFull 0).directorySound := by
  unfold State.onUnlockedCard
  split
  · exact d.answerLatched _ _
  · next e found =>
    dsimp only
    split
    · exact d.answerLatched _ _
    split
    · exact d.answerLatched _ _
    next unused =>
    have unclaimed : e.claimedBy = none := by
      by_contra h
      exact unused (by simp [State.inUse, Option.isSome_iff_ne_none, h])
    repeat' split
    · exact d.answerLatched _ _
    · exact (d.retireRecord (not_asleep_of_running released mode) (Claimed.lookup_mem found) unclaimed).answerLatched _ _
    · exact d.answerLatched _ _

/-- A slot of class 1 without an erase is not placed. -/
theorem not_placed {x : Slot} (erase : s.hasErase x = false) (orphan : s.slotClass x = 1) : x ∉ s.placed := by
  unfold State.slotClass at orphan
  have unindexed : (s.bySlot x).isSome = false := by
    by_contra h
    rw [if_pos (eq_true_of_ne_false h)] at orphan
    exact absurd orphan (by decide)
  rw [if_neg (by simp [unindexed])] at orphan
  have taken : s.dir.free.contains x = false := by
    by_contra h
    rw [if_pos (by simpa using h)] at orphan
    exact absurd orphan (by decide)
  intro h
  obtain h | h := List.mem_append.1 h
  · obtain h | h := List.mem_append.1 h
    · obtain ⟨e, he, rfl⟩ := List.mem_map.1 h
      have none : s.bySlot e.slot = none := by simpa using unindexed
      exact absurd (List.find?_eq_none.1 none e he) (by simp)
    · simp [h] at taken
  · obtain ⟨e, he, rfl⟩ := List.mem_map.1 h
    obtain ⟨he, erases⟩ := List.mem_filter.1 he
    have none := List.any_eq_false.1 erase e he
    simp [erases] at none

theorem eraseSlot (d : s.directorySound) (released : s.pins.released = true) (mode : s.port.mode = .running) :
    (let x := s.port.staging.slot
    if s.slotLocked x then s.answerLatched .locked 0
    else if s.hasErase x then s.answerLatched .pending 0
    else if s.slotClass x ≠ 1 then s.answerLatched .badState 0
    else if s.hasRoom then
      (s.joinQueue { work := .eraseSlot, slot := x, attempts := 0, origin := .host }).answerLatched .ok
        (toWord x.val)
    else s.answerLatched .queueFull 0).directorySound := by
  dsimp only
  split
  · exact d.answerLatched _ _
  split
  · exact d.answerLatched _ _
  next erase =>
  split
  · exact d.answerLatched _ _
  next orphan =>
  split
  · exact (d.joinErase (not_asleep_of_running released mode) mode rfl
      (not_placed (by simpa using erase) (by simpa using orphan))).answerLatched _ _
  · exact d.answerLatched _ _

theorem unlessReset {act : State → State} (d : s.directorySound) (h : (act s).directorySound) :
    (unlessReset act s).directorySound := by
  unfold Machine.unlessReset
  split
  · exact d
  · exact h

/-- The passage over the commands. -/
theorem exec_completes (d : s.directorySound) (sound : s.engine.sound) (c : Instr) :
    ∃ t, exec c s = .next t ∧ t.directorySound := by
  by_cases h : reshapes c = true
  · cases c with
    | powerOn cut => exact ⟨_, rfl, pinReset cut _ s⟩
    | powerFailure cut => exact ⟨_, rfl, pinReset cut _ s⟩
    | resetnAsserted cut =>
      refine ⟨_, rfl, ?_⟩
      split
      · next absent =>
        have reset : s.pins.released = false := by simp [Pins.released, absent]
        obtain ⟨empty, rebuild, ready, idle, lines⟩ := d.asleep (.inl reset)
        exact { d with
          rebuild := fun r hr => by
            rw [State.onPins_dir, rebuild] at hr
            nomatch hr
          asleep := fun _ => ⟨empty, rebuild, ready, idle, lines⟩ }
      · exact pinReset cut _ s
    | resetnDeasserted =>
      refine ⟨_, rfl, ?_⟩
      split
      · next low => exact d.leaveReset (by simp [Pins.released, low]) _
      · exact d
    | supplyValid =>
      refine ⟨_, rfl, ?_⟩
      split
      · next rising => exact d.leaveReset (by simp [Pins.released, rising]) _
      · exact d
    | resetEnter =>
      refine ⟨_, rfl, d.takeFrame fun t d released => ?_⟩
      unfold Machine.whenRunning
      split
      · next mode => exact (d.beginDrain released mode).answer _ _
      · exact d.answer _ _
    | enterInReset =>
      refine ⟨_, rfl, d.unlessReset ?_⟩
      split
      · exact enterInReset s
      · exact d
    | resetLeave =>
      refine ⟨_, rfl, d.takeFrame fun t d released => ?_⟩
      split
      · exact d.answer _ _
      · next mode =>
        obtain ⟨empty, rebuild, -⟩ := d.asleep (.inr mode)
        exact (d.startUp empty rebuild released).answer _ _
      · exact d.answer _ _
      · exact d.answer _ _
    | issue =>
      refine ⟨_, rfl, d.takeFrame fun t d released => d.latched fun mode => ?_⟩
      dsimp only
      split
      · exact d.answerLatched _ _
      split
      · exact d.answerLatched _ _
      next unknown =>
      split
      · exact d.answerLatched _ _
      · exact d.issue released mode unknown
    | retire => exact ⟨_, rfl, d.takeFrame fun t d released => d.latched fun mode => d.retire released mode⟩
    | eraseSlot => exact ⟨_, rfl, d.takeFrame fun t d released => d.latched fun mode => d.eraseSlot released mode⟩
    | storeReadComplete change => exact ⟨_, rfl, d.unlessReset (d.readComplete change)⟩
    | entryStart => exact ⟨_, rfl, d.unlessReset d.entryStart⟩
    | valueWriteComplete left => exact ⟨_, rfl, d.unlessReset (d.valueWriteComplete sound left)⟩
    | issueStepComplete left => exact ⟨_, rfl, d.unlessReset (d.issueStepComplete left)⟩
    | eraseComplete left => exact ⟨_, rfl, d.unlessReset (d.eraseComplete sound left)⟩
    | _ => nomatch h
  · by_cases asleep : s.asleep ∧ mayCall c = true
    · obtain ⟨t, ht, runs⟩ := Runs.of_asleep asleep.2 asleep.1 (d.dormant asleep.1).lines
      exact ⟨t, ht, d.of_runs runs fun _ => id⟩
    · obtain ⟨t, ht, runs⟩ := Runs.of_exec (by simpa using h) s
      exact ⟨t, ht, d.of_runs runs fun a calls => asleep ⟨a, calls⟩⟩

end State.directorySound

/-- Settles O58. -/
theorem stepsKeepTheDirectory : Obligations.StepsKeepTheDirectory := by
  intro s t next sound d
  obtain ⟨-, rfl⟩ | ⟨c, rest, -, next⟩ := step_next next
  · exact d.of_runs (Runs.tick (calls := False) s) fun _ => id
  · have waiting : ({ s with pending := rest } : State).directorySound := { d with }
    obtain ⟨u, hu, kept⟩ := waiting.exec_completes sound c
    rw [hu] at next
    cases next
    exact kept

end Sys2Proof.Machine
end

section
/-!
PROOFS. What single updates of a position keep of its laws (O57).
-/

namespace Sys2Proof.Machine

/-- What a position keeps whatever its state: its claim items are 0 without a claim, W never exceeds the claim balance,
and the silent count stops at 15. -/
structure Position.fair (c : Position) : Prop where
  items : c.claim = none → c.claimBalance = 0 ∧ c.working = 0 ∧ c.debited = 0
  working : c.working ≤ c.claimBalance
  silent : c.silentCount ≤ 15

namespace Position

variable {c : Position}

theorem sound.fair (h : c.sound) : c.fair := by
  obtain ⟨-, -, -, items, working, silent, -⟩ := h
  exact ⟨items, working, silent⟩

theorem sound.call_none (h : c.sound) (metered : c.state ≠ .metered) (grace : c.state ≠ .grace) : c.call = none := by
  obtain ⟨call, -⟩ := h
  by_contra some
  obtain stands | stands := call.1 (Option.isSome_iff_ne_none.2 some)
  · exact metered stands
  · exact grace stands

theorem sound.claim (h : c.sound) (metered : c.state = .metered) : c.claim.isSome = true := h.2.1 metered

theorem sound.call (h : c.sound) {k : Call} (hk : c.call = some k) : k.sound c.state := h.2.2.2.2.2.2 k hk

/-- A position without a call, in a state that needs none. -/
theorem fair.sound (h : c.fair) (call : c.call = none) (metered : c.state ≠ .metered) (grace : c.state ≠ .grace)
    (empty : c.state = .off ∨ c.state = .lost → c.claim = none) : c.sound := by
  refine ⟨?_, fun m => absurd m metered, empty, h.items, h.working, h.silent, ?_⟩
  · simp [call, metered, grace]
  · simp [call]

/-- A position on a call. -/
theorem fair.sound_call (h : c.fair) {k : Call} (call : c.call = some k) (state : c.state = .metered ∨ c.state = .grace)
    (claim : c.state = .metered → c.claim.isSome = true) (sound : k.sound c.state) : c.sound := by
  refine ⟨by simp [call, state], claim, ?_, h.items, h.working, h.silent, ?_⟩
  · rintro (e | e) <;> rw [e] at state <;> exact absurd state (by decide)
  · simpa [call] using sound

theorem settled_sound : c.settled.sound ↔ c.sound := .rfl

theorem fair.dropClaim (h : c.fair) : c.dropClaim.fair := ⟨fun _ => ⟨rfl, rfl, rfl⟩, le_rfl, h.silent⟩

theorem fair.enterCut (h : c.fair) (v : Verdict) : (c.enterCut v).sound :=
  fair.sound (c := c.enterCut v) ⟨h.items, h.working, h.silent⟩ rfl (by simp [Position.enterCut])
    (by simp [Position.enterCut]) (by simp [Position.enterCut])

theorem fair.enterGrace (h : c.fair) (window amount : Nat) (k : Call) : (c.enterGrace window amount k).sound := by
  unfold Position.enterGrace
  split
  · exact h.enterCut _
  · next small =>
    split
    · exact h.enterCut _
    · refine fair.sound_call (k := { k with
        amount := amount, intervalTimer := none, graceTimer := some (10 * window), sub := .old })
        ⟨h.items, h.working, h.silent⟩ rfl (.inr rfl) nofun ?_
      exact ⟨not_lt.1 small, fun _ => ⟨rfl, rfl⟩, nofun⟩

theorem fair.spend (h : c.fair) (claim : c.claim ≠ none) (cls : CardClass) (units : Nat) : (c.spend cls units).fair := by
  refine ⟨fun none => absurd none claim, ?_, h.silent⟩
  have := h.working
  unfold Position.spend
  dsimp only
  split <;> omega

theorem sound.spend (h : c.sound) (claim : c.claim ≠ none) (cls : CardClass) (units : Nat) : (c.spend cls units).sound := by
  obtain ⟨items, working, silent⟩ := h.fair.spend claim cls units
  obtain ⟨call, metered, empty, -, -, -, calls⟩ := h
  exact ⟨call, metered, empty, items, working, silent, calls⟩

/-- A position with a card not refused nor granted yet, in CHECKING. -/
theorem sound.checking_call (h : c.sound) (state : c.state = .checking) : c.call = none :=
  h.call_none (by rw [state]; decide) (by rw [state]; decide)

theorem sound.accepted (h : c.sound) (state : c.state = .checking) (x : Slot) (serial : Serial) (cls : CardClass)
    (i : Image) : ({ c.takeCard x serial cls i with state := .held } : Position).sound :=
  fair.sound (c := { c.takeCard x serial cls i with state := .held }) ⟨nofun, le_rfl, h.fair.silent⟩
    (h.checking_call state) nofun nofun nofun

theorem sound.refused (h : c.sound) (state : c.state = .checking) (serial : Serial) (r : RefusalReason) :
    ({ c.takeRefusal serial r with state := .refused } : Position).sound :=
  fair.sound (c := { c.takeRefusal serial r with state := .refused })
    ⟨h.fair.items, h.fair.working, h.fair.silent⟩ (h.checking_call state) nofun nofun nofun

theorem sound.waiting (h : c.sound) (state : c.state = .checking) : ({ c with state := .waiting } : Position).sound :=
  fair.sound (c := { c with state := .waiting }) ⟨h.fair.items, h.fair.working, h.fair.silent⟩
    (h.checking_call state) nofun nofun nofun

/-- A card is taken in a state on a telephone. -/
theorem sound.takeCard (h : c.sound) (off : c.state ≠ .off) (lost : c.state ≠ .lost) (x : Slot) (serial : Serial)
    (cls : CardClass) (i : Image) : (c.takeCard x serial cls i).sound := by
  obtain ⟨call, -, -, -, -, few, sound⟩ := h
  refine ⟨call, fun _ => rfl, ?_, nofun, le_rfl, few, sound⟩
  rintro (e | e)
  · exact absurd e off
  · exact absurd e lost

/-- The call of a position in GRACE changes, and its timers and a small amount stay. -/
theorem sound.onCall (h : c.sound) (f : Call → Call) (g : Position → Position)
    (same : ∀ c, (g c).state = c.state ∧ (g c).claim = c.claim ∧ (g c).claimBalance = c.claimBalance ∧
      (g c).working = c.working ∧ (g c).debited = c.debited ∧ (g c).silentCount = c.silentCount ∧
      (g c).call = c.call.map f)
    (kept : ∀ k, (f k).amount = k.amount ∧ (f k).graceTimer.isSome = k.graceTimer.isSome ∧
      (f k).intervalTimer.isSome = k.intervalTimer.isSome ∧ (f k).zone = k.zone) : (g c).sound := by
  obtain ⟨state, claim, balance, working, debited, silent, call⟩ := same c
  obtain ⟨calls, metered, empty, items, below, few, sound⟩ := h
  refine ⟨?_, ?_, ?_, ?_, ?_, ?_, ?_⟩
  · rw [call, state]; simpa using calls
  · rw [state, claim]; exact metered
  · rw [state, claim]; exact empty
  · rw [claim, balance, working, debited]; exact items
  · rw [working, balance]; exact below
  · rw [silent]; exact few
  · intro m hm
    rw [call] at hm
    obtain ⟨k, hk, rfl⟩ := Option.map_eq_some_iff.1 hm
    obtain ⟨amount, grace, interval, zone⟩ := kept k
    obtain ⟨small, inGrace, inMetered⟩ := sound k hk
    rw [state]
    refine ⟨amount ▸ small, fun e => ?_, fun e => ?_⟩
    · obtain ⟨some, none⟩ := inGrace e
      refine ⟨grace.trans some, ?_⟩
      rw [none] at interval
      simpa using interval
    · obtain ⟨none, zero, timed⟩ := inMetered e
      rw [none] at grace
      exact ⟨by simpa using grace, amount.trans zero, by rw [interval, zone]; exact timed⟩

theorem setSub_sound (h : c.sound) (sub : SubState) : (c.setSub sub).sound :=
  h.onCall (fun k => { k with sub := sub }) (Position.setSub sub) (fun _ => ⟨rfl, rfl, rfl, rfl, rfl, rfl, rfl⟩)
    fun _ => ⟨rfl, rfl, rfl, rfl⟩

end Position

theorem Call.owe_timers (r interval n : Nat) (k : Call) : (Call.owe r interval n k).2.graceTimer = k.graceTimer ∧
    (Call.owe r interval n k).2.intervalTimer = k.intervalTimer ∧ (Call.owe r interval n k).2.zone = k.zone := by
  induction n generalizing k with
  | zero => exact ⟨rfl, rfl, rfl⟩
  | succ n ih => exact ih (k.fix r interval)

/-! ### The contexts after single operations -/

@[simp] theorem State.ctx_raise (f : Flag) (u : Attention → Attention) (s : State) (p : Pos) :
    (s.raise f u).ctx p = s.ctx p := rfl

theorem State.ctx_of_positions {s t : State} (h : t.positions = s.positions) (p : Pos) : t.ctx p = s.ctx p := by
  rw [State.ctx, h]; rfl

theorem State.offerSettlement_positions (x : Slot) (i : Image) (s : State) :
    (s.offerSettlement x i).positions = s.positions := by
  unfold State.offerSettlement
  split <;> rfl

theorem State.offerSettlement_lines (x : Slot) (i : Image) (s : State) : (s.offerSettlement x i).lines = s.lines :=
  (Calls.offerSettlement (P := fun _ => True) x i s).lines

theorem State.endClaim_lines (p : Pos) (b : Bool) (s : State) : (s.endClaim p b).lines = s.lines :=
  (Calls.endClaim (P := fun _ => True) trivial b s).lines

theorem State.ctx_endClaim_of_none {p : Pos} {s : State} (h : (s.ctx p).claim = none) (b : Bool) : s.endClaim p b = s := by
  unfold State.endClaim
  rw [h]

/-- The end of a claim drops the claim's items of its position. -/
theorem State.ctx_endClaim (p : Pos) (b : Bool) (s : State) :
    (s.endClaim p b).ctx p = if (s.ctx p).claim.isSome then (s.ctx p).dropClaim.settled else s.ctx p := by
  cases h : (s.ctx p).claim with
  | none => rw [ctx_endClaim_of_none h]; rfl
  | some k =>
    unfold State.endClaim
    rw [h]
    simp only [Option.isSome_some, if_true, State.ctx_onCtx_same]
    rw [State.ctx_of_positions (show (State.release k.slot _).positions = s.positions from
      State.offerSettlement_positions _ _ _)]

theorem State.ctx_endClaim_other {p q : Pos} (h : p ≠ q) (b : Bool) (s : State) :
    (s.endClaim p b).ctx q = s.ctx q := by
  unfold State.endClaim
  split
  · rfl
  · rw [State.ctx_onCtx_other h]
    exact State.ctx_of_positions (State.offerSettlement_positions _ _ _) q

/-- After a position's claim has ended it holds none, and the rest of it is as it was. -/
theorem State.endClaim_position (p : Pos) (b : Bool) {s : State} (h : (s.ctx p).fair) :
    ((s.endClaim p b).ctx p).fair ∧ ((s.endClaim p b).ctx p).claim = none ∧
      ((s.endClaim p b).ctx p).state = (s.ctx p).state ∧ ((s.endClaim p b).ctx p).call = (s.ctx p).call := by
  rw [State.ctx_endClaim]
  split
  · exact ⟨⟨h.dropClaim.items, h.dropClaim.working, h.dropClaim.silent⟩, rfl, rfl, rfl⟩
  · next none => exact ⟨h, by simpa using none, rfl, rfl⟩

end Sys2Proof.Machine
end

section
/-!
PROOFS. The laws of the positions under settlements, debits, answers and the events of a position (O57). `Stands` also
says that no position leaves OFF, and none leaves LOST but for OFF.
-/

namespace Sys2Proof.Machine

/-- The laws of the positions stay, no position leaves OFF, none leaves LOST but for OFF, and the lines stay. -/
structure Stands (s t : State) : Prop where
  lines : t.lines = s.lines
  sound : s.positionsSound → t.positionsSound
  states : ∀ p, (t.ctx p).state = .off ∨
    (s.ctx p).state ≠ .off ∧ ((s.ctx p).state = .lost → (t.ctx p).state = .lost)

theorem State.positionsSound_of_others {s t : State} {p : Pos} (h : s.positionsSound)
    (others : ∀ q, p ≠ q → t.ctx q = s.ctx q) (hp : (t.ctx p).sound) : t.positionsSound := fun q => by
  by_cases e : p = q
  · exact e ▸ hp
  · rw [others q e]; exact h q

theorem State.positionsSound_onCtx {s : State} {p : Pos} {f : Position → Position} (h : s.positionsSound)
    (hp : (f (s.ctx p)).sound) : (s.onCtx p f).positionsSound :=
  positionsSound_of_others h (fun _ other => State.ctx_onCtx_other other f s) (by
    rw [State.ctx_onCtx_same]; exact hp)

theorem State.positionsSound_of_positions {s t : State} (h : s.positionsSound) (same : t.positions = s.positions) :
    t.positionsSound := fun p => by rw [State.ctx_of_positions same]; exact h p

/-- Whatever context the end of its claim is followed by. -/
theorem State.endClaim_onCtx_other {p q : Pos} (h : p ≠ q) (b : Bool) (f : Position → Position) (s : State) :
    ((s.endClaim p b).onCtx p f).ctx q = s.ctx q := by
  rw [State.ctx_onCtx_other h, State.ctx_endClaim_other h]

namespace Stands

variable {s t u : State}

theorem refl (s : State) : Stands s s := ⟨rfl, id, fun p => by
  by_cases h : (s.ctx p).state = .off
  · exact .inl h
  · exact .inr ⟨h, id⟩⟩

theorem trans (h : Stands s t) (k : Stands t u) : Stands s u := ⟨k.lines.trans h.lines, k.sound ∘ h.sound, fun p => by
  obtain off | ⟨on, lost⟩ := k.states p
  · exact .inl off
  · obtain off | ⟨before, was⟩ := h.states p
    · exact absurd off on
    · exact .inr ⟨before, lost ∘ was⟩⟩

theorem of_positions (h : t.positions = s.positions) (lines : t.lines = s.lines := by rfl) : Stands s t :=
  ⟨lines, fun sound => State.positionsSound_of_positions sound h, fun p => by
    rw [State.ctx_of_positions h]; exact (refl s).states p⟩

theorem of_other {p : Pos} (others : ∀ q, p ≠ q → t.ctx q = s.ctx q)
    (sound : s.positionsSound → (t.ctx p).sound)
    (state : (t.ctx p).state = .off ∨ (s.ctx p).state ≠ .off ∧ ((s.ctx p).state = .lost → (t.ctx p).state = .lost))
    (lines : t.lines = s.lines := by rfl) : Stands s t := ⟨lines, fun h => State.positionsSound_of_others h others (sound h), fun q => by
  by_cases e : p = q
  · exact e ▸ state
  · rw [others q e]; exact (refl s).states q⟩

theorem onCtx {p : Pos} {f : Position → Position} {s : State} (sound : (s.ctx p).sound → (f (s.ctx p)).sound)
    (state : (f (s.ctx p)).state = .off ∨
      (s.ctx p).state ≠ .off ∧ ((s.ctx p).state = .lost → (f (s.ctx p)).state = .lost)) : Stands s (s.onCtx p f) :=
  of_other (fun _ other => State.ctx_onCtx_other other f s)
    (fun h => by rw [State.ctx_onCtx_same]; exact sound (h p)) (by rw [State.ctx_onCtx_same]; exact state)

theorem state_same {c d : PosState} (h : d = c) : d = .off ∨ c ≠ .off ∧ (c = .lost → d = .lost) := by
  subst h
  by_cases off : d = .off
  · exact .inl off
  · exact .inr ⟨off, id⟩

theorem state_active {c d : PosState} (off : c ≠ .off) (lost : c ≠ .lost) :
    d = .off ∨ c ≠ .off ∧ (c = .lost → d = .lost) := .inr ⟨off, fun e => absurd e lost⟩

/-- A context keeps its state. -/
theorem onCtx_same {p : Pos} {f : Position → Position} {s : State} (sound : (s.ctx p).sound → (f (s.ctx p)).sound)
    (state : (f (s.ctx p)).state = (s.ctx p).state) : Stands s (s.onCtx p f) := onCtx sound (state_same state)

/-! ### Settlements and debits -/

theorem checkpoint (p : Pos) (s : State) : Stands s (s.checkpoint p) := by
  unfold State.checkpoint
  split
  · exact refl s
  · next k hk =>
    have queued := of_positions (State.offerSettlement_positions k.slot (k.settlement (s.ctx p).working false) s)
      (State.offerSettlement_lines _ _ _)
    refine queued.trans (onCtx_same (fun h => ?_) rfl)
    obtain ⟨call, metered, empty, items, below, few, sound⟩ := h
    exact ⟨call, metered, empty, fun none => ⟨(items none).1, (items none).2.1, rfl⟩, below, few, sound⟩

theorem addTakings (cls : CardClass) (zone : BitVec 4) (units : Nat) (s : State) :
    Stands s (s.addTakings cls zone units) := by
  refine of_positions ?_ (Calls.addTakings (P := fun _ => True) cls zone units s).lines
  unfold State.addTakings
  dsimp only
  repeat' split
  all_goals rfl

theorem addTakings_ctx (cls : CardClass) (zone : BitVec 4) (units : Nat) (s : State) (p : Pos) :
    (s.addTakings cls zone units).ctx p = s.ctx p := by
  unfold State.addTakings
  dsimp only
  repeat' split
  all_goals rfl

theorem debit (p : Pos) (zone : BitVec 4) (units : Nat) (s : State) : Stands s (s.debit p zone units) := by
  unfold State.debit
  split
  · exact refl s
  · next k hk =>
    have spent : Stands s ((s.addTakings k.cls zone units).onCtx p (Position.spend k.cls units)) := by
      refine (addTakings _ _ _ s).trans (onCtx_same (fun h => h.spend ?_ _ _) rfl)
      rw [addTakings_ctx, hk]
      nofun
    dsimp only
    repeat' split
    · exact refl s
    · exact spent.trans (checkpoint p _)
    · exact spent

theorem afterTariffRead (zone : BitVec 4) (s : State) : Stands s (s.afterTariffRead zone) := by
  unfold State.afterTariffRead
  split
  · exact refl s
  · exact of_positions rfl

theorem afterTariffRead_ctx (zone : BitVec 4) (s : State) (p : Pos) : (s.afterTariffRead zone).ctx p = s.ctx p := by
  unfold State.afterTariffRead
  split <;> rfl

theorem enterCut {p : Pos} {s : State} (v : Verdict) (off : (s.ctx p).state ≠ .off) (lost : (s.ctx p).state ≠ .lost) :
    Stands s (s.onCtx p (Position.enterCut v)) :=
  onCtx (fun h => h.fair.enterCut v) (state_active off lost)

theorem enterGrace {p : Pos} {s : State} (w a : Nat) (k : Call) (off : (s.ctx p).state ≠ .off)
    (lost : (s.ctx p).state ≠ .lost) : Stands s (s.onCtx p (Position.enterGrace w a k)) :=
  onCtx (fun h => h.fair.enterGrace w a k) (state_active off lost)

theorem updateWarn (p : Pos) (s : State) : Stands s (s.onCtx p Position.updateWarn) := by
  refine onCtx_same (fun h => ?_) ?_ <;> unfold Position.updateWarn <;> split
  · exact h
  · exact h
  · rfl
  · rfl

/-- A position that holds a card enters METERED. -/
theorem meter {p : Pos} {s : State} (k : Call) (amount : Nat) (claim : (s.ctx p).claim.isSome = true)
    (off : (s.ctx p).state ≠ .off) (lost : (s.ctx p).state ≠ .lost) : Stands s (s.meter p k amount) := by
  refine Stands.trans (Stands.trans (onCtx (fun h => ?_) (state_active off lost)) (debit p _ _ _)) (updateWarn p _)
  refine Position.fair.sound_call (k := { k with
      intervalTimer := if k.zone = 15 then none else some k.interval, graceTimer := none, amount := 0, sub := .old })
    ⟨h.fair.items, h.fair.working, h.fair.silent⟩ rfl (.inl rfl) (fun _ => claim) ⟨Nat.zero_le _, nofun, fun _ => ?_⟩
  refine ⟨rfl, rfl, ?_⟩
  dsimp only
  split <;> simp_all

theorem claim_of_pays {c : Position} {a : Nat} (h : c.pays a = true) : c.claim.isSome = true := by
  unfold Position.pays Position.cls at h
  cases claim : c.claim with
  | none => rw [claim] at h; nomatch h
  | some k => rfl

/-! ### The events of a position -/

theorem intervalExpiry (p : Pos) (s : State) : Stands s (s.intervalExpiry p) := by
  unfold State.intervalExpiry
  dsimp only
  split
  · next k cls state _ _ =>
    have off : ((s.afterTariffRead k.zone).ctx p).state ≠ .off := by rw [afterTariffRead_ctx, state]; decide
    have lost : ((s.afterTariffRead k.zone).ctx p).state ≠ .lost := by rw [afterTariffRead_ctx, state]; decide
    split
    · exact refl s
    split
    · exact (afterTariffRead _ s).trans (enterCut _ off lost)
    split
    · next pays => exact (afterTariffRead _ s).trans (meter _ _
        (by rw [afterTariffRead_ctx]; exact claim_of_pays pays) off lost)
    · exact (afterTariffRead _ s).trans (enterGrace _ _ _ off lost)
  · exact refl s

theorem graceExpiry (p : Pos) (s : State) : Stands s (s.graceExpiry p) := by
  unfold State.graceExpiry
  split
  · next k state _ =>
    split
    · exact refl s
    · exact enterCut _ (by rw [state]; decide) (by rw [state]; decide)
  · exact refl s

/-! ### Entry to LOST and OFF, and BLOCK -/

theorem giveUp_position (p : Pos) (target : PosState) {s : State} (h : (s.ctx p).fair) (metered : target ≠ .metered)
    (grace : target ≠ .grace) : ((s.giveUp p target).ctx p).sound := by
  obtain ⟨fair, claim, -, -⟩ := State.endClaim_position p false h
  unfold State.giveUp
  rw [State.ctx_onCtx_same]
  exact Position.fair.sound (c := { ((s.endClaim p false).ctx p).abandon.clearRefused with
    state := target, call := none, candidate := none, highHalf := none }) ⟨fair.items, fair.working, fair.silent⟩ rfl
    metered grace fun _ => claim

theorem giveUp_others (p : Pos) (target : PosState) (s : State) : ∀ q, p ≠ q → (s.giveUp p target).ctx q = s.ctx q :=
  fun _ other => State.endClaim_onCtx_other other _ _ s

@[simp] theorem giveUp_state (p : Pos) (target : PosState) (s : State) : ((s.giveUp p target).ctx p).state = target := by
  unfold State.giveUp
  rw [State.ctx_onCtx_same]
  rfl

theorem enterOff (p : Pos) (s : State) : Stands s (s.enterOff p) := by
  unfold State.enterOff
  split
  · exact refl s
  · exact of_other (giveUp_others p _ s) (fun h => giveUp_position p _ (h p).fair (by decide) (by decide))
      (.inl (giveUp_state p _ s)) (State.endClaim_lines p _ s)

theorem enterLost (p : Pos) (s : State) : Stands s (s.enterLost p) := by
  have gone : (s.ctx p).state ≠ .off → (s.ctx p).state ≠ .lost → Stands s (s.giveUp p .lost) := fun off lost =>
    of_other (giveUp_others p _ s) (fun h => giveUp_position p _ (h p).fair (by decide) (by decide))
      (state_active off lost) (State.endClaim_lines p _ s)
  unfold State.enterLost
  dsimp only
  split
  · exact refl s
  · next there =>
    obtain ⟨off, lost⟩ := not_or.1 there
    split
    · exact (gone off lost).trans (of_positions rfl)
    · exact gone off lost

theorem lostToOff (p : Pos) (s : State) : Stands s (s.lostToOff p) := by
  unfold State.lostToOff
  split
  · exact enterOff p s
  · exact refl s

theorem blockThrough (p : Pos) (s : State) : Stands s (s.blockThrough p) := by
  unfold State.blockThrough
  split
  · exact refl s
  · next k hk =>
    have state : ((s.endClaim p true).ctx p).state = (s.ctx p).state := by
      rw [State.ctx_endClaim]; split <;> rfl
    refine of_other (fun _ other => State.endClaim_onCtx_other other _ _ s) (fun h => ?_) ?_
      (State.endClaim_lines p _ s)
    · obtain ⟨fair, claim, -, call⟩ := State.endClaim_position p true (h p).fair
      have refused : (((s.endClaim p true).ctx p).takeRefusal k.serial .blocked).fair :=
        ⟨fair.items, fair.working, fair.silent⟩
      rw [State.ctx_onCtx_same, Position.settled_sound]
      dsimp only
      split
      · next held =>
        have idle := (h p).call_none (by rw [← state, held]; decide) (by rw [← state, held]; decide)
        exact Position.fair.sound (c := { ((s.endClaim p true).ctx p).takeRefusal k.serial .blocked with
          state := .refused }) ⟨fair.items, fair.working, fair.silent⟩ (call.trans idle) nofun nofun nofun
      · exact refused.enterCut _
      · exact refused.enterCut _
      · exact refused.enterCut _
      · next held metered grace cut =>
        have idle := (h p).call_none (state ▸ metered) (state ▸ grace)
        exact refused.sound (call.trans idle) metered grace fun _ => claim
    · rw [State.ctx_onCtx_same]
      show (Position.state _) = _ ∨ _
      dsimp only [Position.settled]
      split
      · next held => exact state_active (by rw [← state, held]; decide) (by rw [← state, held]; decide)
      · next held => exact state_active (by rw [← state, held]; decide) (by rw [← state, held]; decide)
      · next held => exact state_active (by rw [← state, held]; decide) (by rw [← state, held]; decide)
      · next held => exact state_active (by rw [← state, held]; decide) (by rw [← state, held]; decide)
      · exact state_same state

/-! ### The answer to a claim -/

theorem gracePayment {p : Pos} {s : State} (state : (s.ctx p).state = .grace) : Stands s (s.gracePayment p) := by
  unfold State.gracePayment
  dsimp only
  split
  · next k held _ _ =>
    split
    · next pays => exact meter _ _ (claim_of_pays pays) (by rw [state]; decide) (by rw [state]; decide)
    · have kept : ((s.endClaim p false).ctx p).state = .grace := by
        rw [State.ctx_endClaim]; split <;> exact state
      refine of_other (fun _ other => State.endClaim_onCtx_other other _ _ s) (fun h => ?_)
        (state_active (by rw [state]; decide) (by rw [state]; decide)) (State.endClaim_lines p _ s)
      obtain ⟨fair, claim, -, call⟩ := State.endClaim_position p false (h p).fair
      rw [State.ctx_onCtx_same, Position.settled_sound]
      refine Position.setSub_sound ?_ _
      cases hk : (s.ctx p).call with
      | none =>
        obtain ⟨calls, -⟩ := h p
        exact absurd (calls.2 (.inr state)) (by simp [hk])
      | some k =>
        exact Position.fair.sound_call (k := k) ⟨fair.items, fair.working, fair.silent⟩ (call.trans hk) (.inr kept)
          (fun m => absurd (kept.symm.trans m) (by decide)) (by
            rw [show PosState.grace = (s.ctx p).state from state.symm] at kept
            show k.sound ((s.endClaim p false).ctx p).state
            rw [kept]
            exact (h p).call hk)
  · exact refl s

theorem takeAnswer (p : Pos) (a : ClaimAnswer) (s : State) : Stands s (s.takeAnswer p a) := by
  unfold State.takeAnswer
  split
  · exact refl s
  · next o _ =>
    have cleared : Stands s (s.onCtx p fun c => { c with outstanding := none }) := onCtx_same id rfl
    dsimp only
    split
    · split
      · exact cleared.trans (of_positions (State.offerSettlement_positions _ _ _) (State.offerSettlement_lines _ _ _))
      · exact cleared
    · have now : ((s.onCtx p fun c => { c with outstanding := none }).ctx p).state = (s.ctx p).state := by
        rw [State.ctx_onCtx_same]; rfl
      have there : ∀ st, (s.ctx p).state = st → ((s.onCtx p fun c => { c with outstanding := none }).ctx p).state = st :=
        fun _ e => now.trans e
      split
      · next state =>
        exact cleared.trans (onCtx (fun h => h.accepted (there _ state) _ _ _ _)
          (state_active (by rw [there _ state]; decide) (by rw [there _ state]; decide)))
      · next state =>
        exact cleared.trans (onCtx (fun h => h.refused (there _ state) _ _)
          (state_active (by rw [there _ state]; decide) (by rw [there _ state]; decide)))
      · next state =>
        exact cleared.trans (onCtx (fun h => h.waiting (there _ state))
          (state_active (by rw [there _ state]; decide) (by rw [there _ state]; decide)))
      · next x cls i state =>
        refine (cleared.trans (onCtx_same (fun h => h.takeCard (by rw [there _ state]; decide)
          (by rw [there _ state]; decide) x o.serial cls i) rfl)).trans (gracePayment ?_)
        rw [State.ctx_onCtx_same]
        exact there _ state
      · next r state =>
        exact cleared.trans (onCtx_same (fun h => Position.setSub_sound (c := Position.takeRefusal o.serial r _) h _) rfl)
      · exact cleared
      · next state =>
        exact cleared.trans (onCtx_same (fun h => h.takeCard (by rw [there _ state]; decide)
          (by rw [there _ state]; decide) _ _ _ _) rfl)
      · exact cleared.trans (onCtx_same id rfl)
      · exact cleared.trans (onCtx_same id rfl)
      · exact cleared

/-! ### Claims -/

theorem completeClaim (x : Serial) (p : Pos) (i : Option Image) (s : State) : Stands s (s.completeClaim x p i).1 := by
  refine of_positions ?_ (Calls.completeClaim (P := fun _ => True) x p i s).lines
  unfold State.completeClaim
  repeat' split
  all_goals rfl

theorem requestRead (r : ReadRequest) (s : State) : Stands s (s.requestRead r) := by
  obtain ⟨st, fl, b, n, rd, rl, h, -⟩ := s.requestRead_spec r
  exact of_positions (by rw [h]) (by rw [h])

theorem startClaim (x : Serial) (y : Slot) (p : Pos) (c : Copy) (s : State) : Stands s (s.startClaim x y p c) :=
  Stands.trans (t := s.onDir _) (of_positions rfl) (requestRead _ _)

theorem claimArrives (x : Serial) (p : Pos) (s : State) : Stands s (s.claimArrives x p).1 := by
  unfold State.claimArrives
  repeat' split
  · exact takeAnswer p _ s
  · exact takeAnswer p _ s
  · exact takeAnswer p _ s
  · exact takeAnswer p _ s
  · exact takeAnswer p _ s
  · exact of_positions rfl
  · exact (completeClaim x p _ s).trans (takeAnswer p _ _)
  · exact startClaim _ _ _ _ s
  · exact (completeClaim x p _ s).trans (takeAnswer p _ _)

theorem forPositions (ps : List Pos) {f : Pos → State → State} (h : ∀ p s, Stands s (f p s)) (s : State) :
    Stands s (forPositions ps f s) := by
  induction ps generalizing s with
  | nil => exact refl s
  | cons p ps ih => exact (h p s).trans (ih _)

theorem answerInUse (ps : List Pos) (s : State) : Stands s (s.answerInUse ps) :=
  forPositions ps (fun q => takeAnswer q _) s

theorem retryHeld (x : Serial) (ps : List Pos) (s : State) : Stands s (s.retryHeld x ps) := by
  induction ps generalizing s with
  | nil => exact refl s
  | cons p ps ih =>
    have arrives := claimArrives x p s
    unfold State.retryHeld
    split
    · next t outcome => rw [outcome] at arrives; exact arrives.trans (answerInUse ps t)
    · next t outcome => rw [outcome] at arrives; exact arrives.trans (ih t)
    · next t outcome => rw [outcome] at arrives; exact arrives.trans (of_positions rfl)

theorem finishClaim (c : FlightClaim) (i : Option Image) (s : State) : Stands s (s.finishClaim c i) := by
  unfold State.finishClaim
  dsimp only
  refine Stands.trans (t := s.onDir fun d =>
    { d with claims := d.claims.filter fun k => k.position != c.position }) (of_positions rfl) ?_
  have answered := fun t => (completeClaim c.serial c.position i t).trans
    (takeAnswer c.position (t.completeClaim c.serial c.position i).2 _)
  split
  · exact (answered _).trans (answerInUse _ _)
  · exact (answered _).trans (retryHeld _ _ _)

theorem resolveClaim (p : Pos) (i : Option Image) (s : State) : Stands s (s.resolveClaim p i) := by
  unfold State.resolveClaim
  repeat' split
  · exact refl s
  · exact finishClaim _ _ s
  · exact Stands.trans (t := s.onClaim p _) (of_positions rfl) (requestRead _ _)
  · exact finishClaim _ _ s

theorem offerRefresh_positions (x : Slot) (s : State) : (s.offerRefresh x).positions = s.positions := by
  unfold State.offerRefresh State.offerValue
  repeat' split
  all_goals rfl

theorem noteAndRefresh (x : Slot) (c : Copy) (g : Gen) (note refresh : Bool) (s : State) :
    Stands s (if refresh then (if note then s.noteLive x c g else s).offerRefresh x
      else if note then s.noteLive x c g else s) := by
  have offered : ∀ t, Stands t (t.offerRefresh x) := fun t =>
    of_positions (offerRefresh_positions x t) (Calls.offerRefresh (P := fun _ => True) x t).lines
  have noted : Stands s (s.noteLive x c g) := of_positions rfl
  cases refresh <;> cases note
  · exact refl s
  · exact noted
  · exact offered s
  · exact noted.trans (offered _)

theorem claimRead (p : Pos) (c : Copy) (o : ReadOutcome (Image × Gen)) (s : State) : Stands s (s.claimRead p c o) := by
  unfold State.claimRead
  split
  · exact refl s
  · next k _ =>
    split
    · exact (noteAndRefresh k.slot c _ k.second o.isCorrected s).trans (resolveClaim p _ _)
    · split
      · exact Stands.trans (t := s.foundUnreadable k.slot) (of_positions rfl) (resolveClaim p _ _)
      · exact Stands.trans (t := s.onClaim p _) (of_positions rfl) (requestRead _ _)

end Stands

end Sys2Proof.Machine
end

section
/-!
PROOFS. The laws of the positions under a station report (O57): every state's handling keeps them, given the state that
it is for.
-/

namespace Sys2Proof.Machine

/-- The state that the end of a call in GRACE gives by the card sub-state (R106). -/
def afterGrace (sub : Option SubState) (outstanding : Bool) : PosState :=
  match sub with
  | some .old => .held
  | some .absent => .vacant
  | some .reading => .reading
  | some .checking => if outstanding then .checking else .waiting
  | some .refused => .refused
  | none => .vacant

theorem afterGrace_away (sub : Option SubState) (out : Bool) : afterGrace sub out ≠ .off ∧ afterGrace sub out ≠ .lost ∧
    afterGrace sub out ≠ .metered ∧ afterGrace sub out ≠ .grace := by
  rcases sub with _ | ⟨⟨⟩⟩ <;> cases out <;> decide

theorem State.graceEnd_eq (p : Pos) (s : State) : s.graceEnd p = s.onCtx p fun c =>
    { c with state := afterGrace (c.call.map Call.sub) c.outstanding.isSome, call := none } := rfl

/-! ### The state of a position that pays -/

theorem State.checkpoint_state (p : Pos) (s : State) : ((s.checkpoint p).ctx p).state = (s.ctx p).state := by
  unfold State.checkpoint
  split
  · rfl
  · rw [State.ctx_onCtx_same, Claimed.offerSettlement_ctx]; rfl

theorem State.debit_state (p : Pos) (zone : BitVec 4) (units : Nat) (s : State) :
    ((s.debit p zone units).ctx p).state = (s.ctx p).state := by
  unfold State.debit
  split
  · rfl
  · next k _ =>
    have spent : (((s.addTakings k.cls zone units).onCtx p (Position.spend k.cls units)).ctx p).state =
        (s.ctx p).state := by rw [State.ctx_onCtx_same, Stands.addTakings_ctx]; rfl
    dsimp only
    repeat' split
    · rfl
    · rw [State.checkpoint_state, spent]
    · exact spent

theorem State.meter_state (p : Pos) (k : Call) (amount : Nat) (s : State) : ((s.meter p k amount).ctx p).state = .metered := by
  have warned : ∀ c : Position, c.updateWarn.settled.state = c.state := fun c => by
    unfold Position.updateWarn
    split <;> rfl
  unfold State.meter
  rw [State.ctx_onCtx_same, warned, State.debit_state, State.ctx_onCtx_same]
  rfl

namespace State.positionsSound

variable {s : State} {p : Pos}

/-- The position has no call and stands neither OFF nor LOST. -/
structure resting (s : State) (p : Pos) : Prop where
  call : (s.ctx p).call = none
  state : (s.ctx p).state ≠ .off ∧ (s.ctx p).state ≠ .lost ∧ (s.ctx p).state ≠ .metered ∧ (s.ctx p).state ≠ .grace

theorem rest (h : s.positionsSound) {st : PosState} (state : (s.ctx p).state = st)
    (away : st ≠ .off ∧ st ≠ .lost ∧ st ≠ .metered ∧ st ≠ .grace) : resting s p :=
  ⟨(h p).call_none (state ▸ away.2.2.1) (state ▸ away.2.2.2), state ▸ away⟩

/-- A context takes a state without a call. -/
theorem enter (h : s.positionsSound) {f : Position → Position} {st : PosState} (state : (f (s.ctx p)).state = st)
    (call : (f (s.ctx p)).call = none) (fair : (s.ctx p).fair → (f (s.ctx p)).fair)
    (away : st ≠ .off ∧ st ≠ .lost ∧ st ≠ .metered ∧ st ≠ .grace) : (s.onCtx p f).positionsSound :=
  State.positionsSound_onCtx h ((fair (h p).fair).sound call (state ▸ away.2.2.1) (state ▸ away.2.2.2)
    (by rw [state]; rintro (e | e)
        · exact absurd e away.1
        · exact absurd e away.2.1))

theorem resting_onCtx {f : Position → Position} {st : PosState} (state : (f (s.ctx p)).state = st)
    (call : (f (s.ctx p)).call = none) (away : st ≠ .off ∧ st ≠ .lost ∧ st ≠ .metered ∧ st ≠ .grace) :
    resting (s.onCtx p f) p := by
  constructor
  · rw [State.ctx_onCtx_same]; exact call
  · have now : ((s.onCtx p f).ctx p).state = st := by rw [State.ctx_onCtx_same]; exact state
    rw [now]
    exact away

theorem endClaim (h : s.positionsSound) (b : Bool) (metered : (s.ctx p).state ≠ .metered) :
    (s.endClaim p b).positionsSound := by
  refine State.positionsSound_of_others h (fun _ other => State.ctx_endClaim_other other b s) ?_
  obtain ⟨fair, claim, state, call⟩ := State.endClaim_position p b (h p).fair
  obtain ⟨calls, -, -, -, -, -, sound⟩ := h p
  refine ⟨?_, fun m => absurd (state ▸ m) metered, fun _ => claim, fair.items, fair.working, fair.silent, ?_⟩
  · rw [call, state]; exact calls
  · rw [call, state]; exact sound

theorem endClaim_resting (h : resting s p) (fair : (s.ctx p).fair) (b : Bool) : resting (s.endClaim p b) p := by
  obtain ⟨-, -, state, call⟩ := State.endClaim_position p b fair
  exact ⟨call.trans h.call, state ▸ h.state⟩

theorem endClaim_state (p : Pos) (b : Bool) (s : State) : ((s.endClaim p b).ctx p).state = (s.ctx p).state := by
  rw [State.ctx_endClaim]
  split <;> rfl

theorem enterCut (h : s.positionsSound) (v : Verdict) : (s.onCtx p (Position.enterCut v)).positionsSound :=
  State.positionsSound_onCtx h ((h p).fair.enterCut v)

/-! ### Without a card -/

theorem unpaidTest (h : s.positionsSound) (zone : BitVec 4) : (s.unpaidTest p zone).positionsSound := by
  have read := (Stands.afterTariffRead zone s).sound h
  unfold State.unpaidTest
  dsimp only
  repeat' split
  · exact read
  · exact read.enterCut _
  · exact read.enterCut _

theorem vacantReport (h : s.positionsSound) (idle : resting s p) (r : Report) : (s.vacantReport p r).positionsSound := by
  unfold State.vacantReport
  repeat' split
  · exact h.enter (st := .reading) rfl idle.call (fun f => ⟨f.items, f.working, f.silent⟩) (by decide)
  · exact h
  · exact h.unpaidTest _

theorem cardLeft (h : s.positionsSound) (idle : resting s p) (r : Report) : (s.cardLeft p r).positionsSound :=
  (h.enter (f := fun c => { c with state := .vacant, candidate := none }) (st := .vacant) rfl idle.call
    (fun f => ⟨f.items, f.working, f.silent⟩) (by decide)).vacantReport
      (resting_onCtx (st := .vacant) rfl idle.call (by decide)) r

/-- An update of the items that the laws do not speak of. -/
theorem onCtx_items (h : s.positionsSound) {f : Position → Position}
    (same : ∀ c : Position, c.sound → (f c).sound) : (s.onCtx p f).positionsSound :=
  State.positionsSound_onCtx h (same _ (h p))

theorem resting_items (h : resting s p) {f : Position → Position} (state : ∀ c, (f c).state = c.state)
    (call : ∀ c, (f c).call = c.call) : resting (s.onCtx p f) p :=
  resting_onCtx (state _) ((call _).trans h.call) h.state

/-! ### Claims -/

theorem sendClaim (h : s.positionsSound) (x : Serial) (metered : (s.ctx p).state ≠ .metered) :
    (s.sendClaim p x).positionsSound := by
  have go : ∀ (sub : SubState) (st : PosState) (c : Position), c.sound → c.state ≠ .metered →
      (st ≠ .off ∧ st ≠ .lost ∧ st ≠ .metered ∧ st ≠ .grace) →
      (if c.state = .grace then c.setSub sub else { c with state := st }).sound := by
    intro sub st c sound m away
    split
    · exact Position.setSub_sound sound sub
    · next grace =>
      refine Position.fair.sound (c := { c with state := st }) ⟨sound.fair.items, sound.fair.working, sound.fair.silent⟩
        (sound.call_none m grace) away.2.2.1 away.2.2.2 ?_
      rintro (e | e)
      · exact absurd e away.1
      · exact absurd e away.2.1
  unfold State.sendClaim
  dsimp only
  split
  · exact State.positionsSound_onCtx h (go _ _ { s.ctx p with candidate := none, highHalf := none } (h p) metered
      (by decide))
  · exact (Stands.claimArrives x p _).sound (State.positionsSound_onCtx h (go _ _ { s.ctx p with
      candidate := some x, outstanding := some { serial := x, abandoned := false } } (h p) metered (by decide)))

theorem readingReport (h : s.positionsSound) (idle : resting s p) (r : Report) (x : Option Serial) :
    (s.readingReport p r x).positionsSound := by
  unfold State.readingReport
  repeat' split
  · exact h.cardLeft idle r
  · exact h.sendClaim _ idle.state.2.2.1
  · exact h

theorem checkingReport (h : s.positionsSound) (idle : resting s p) (r : Report) (x : Option Serial) :
    (s.checkingReport p r x).positionsSound := by
  unfold State.checkingReport
  repeat' split
  · exact (h.onCtx_items (f := Position.abandon) fun _ => id).cardLeft
      (resting_items idle (fun _ => rfl) fun _ => rfl) r
  · exact h.enter (st := .reading) rfl idle.call (fun f => ⟨f.items, f.working, f.silent⟩) (by decide)
  · exact h

theorem waitingReport (h : s.positionsSound) (idle : resting s p) (r : Report) (x : Option Serial) :
    (s.waitingReport p r x).positionsSound := by
  unfold State.waitingReport
  repeat' split
  · exact h.cardLeft idle r
  · exact h.sendClaim _ idle.state.2.2.1
  · exact h.sendClaim _ idle.state.2.2.1
  · exact h

/-- A due amount is paid into METERED or held into GRACE. -/
theorem payOrOwe (h : s.positionsSound) (off : (s.ctx p).state ≠ .off) (lost : (s.ctx p).state ≠ .lost) (due w : Nat)
    (k : Call) : (if (s.ctx p).pays due then s.meter p k due
      else s.onCtx p (Position.enterGrace w due k)).positionsSound := by
  split
  · next pays => exact (Stands.meter _ _ (Stands.claim_of_pays pays) off lost).sound h
  · exact (Stands.enterGrace _ _ _ off lost).sound h

theorem answerEvent (h : s.positionsSound) (off : (s.ctx p).state ≠ .off) (lost : (s.ctx p).state ≠ .lost)
    (zone pulse : BitVec 4) : (s.answerEvent p zone pulse).positionsSound := by
  have read := (Stands.afterTariffRead zone s).sound h
  have ctx := Stands.afterTariffRead_ctx zone s p
  unfold State.answerEvent
  dsimp only
  split
  · exact read.payOrOwe (ctx ▸ off) (ctx ▸ lost) _ _ _
  · exact read.enterCut _

theorem heldReport (h : s.positionsSound) (idle : resting s p) (r : Report) (x : Option Serial) :
    (s.heldReport p r x).positionsSound := by
  obtain ⟨off, lost, metered, -⟩ := idle.state
  have ended := h.endClaim (p := p) false metered
  unfold State.heldReport
  repeat' split
  · exact ended.cardLeft (endClaim_resting idle (h p).fair false) r
  · exact ended.sendClaim _ (by rw [endClaim_state]; exact metered)
  · exact h
  · exact h.answerEvent off lost _ _
  · exact h
  · exact h.answerEvent off lost _ _

theorem refusedReport (h : s.positionsSound) (idle : resting s p) (r : Report) (x : Option Serial) :
    (s.refusedReport p r x).positionsSound := by
  have cleared : (s.onCtx p Position.clearRefused).positionsSound := h.onCtx_items fun _ => id
  have still : resting (s.onCtx p Position.clearRefused) p := resting_items idle (fun _ => rfl) fun _ => rfl
  unfold State.refusedReport
  repeat' split
  · exact cleared.cardLeft still r
  · exact h
  · exact cleared.sendClaim _ still.state.2.2.1
  · exact h
  · exact h.unpaidTest _

/-! ### CUT -/

/-- The end of a CUT, when the telephone has hung up. -/
theorem vacantOrRefused (h : s.positionsSound) (idle : resting s p) (r : Report) :
    (if r.present = false then s.onCtx p fun c => { c with state := .vacant }
      else if (s.ctx p).refusedSerial.isSome then s.onCtx p fun c => { c with state := .refused }
      else (s.onCtx p fun c => { c with state := .vacant }).vacantReport p r).positionsSound := by
  have vacant : (s.onCtx p fun c => { c with state := .vacant }).positionsSound :=
    h.enter (st := .vacant) rfl idle.call (fun f => ⟨f.items, f.working, f.silent⟩) (by decide)
  repeat' split
  · exact vacant
  · exact h.enter (st := .refused) rfl idle.call (fun f => ⟨f.items, f.working, f.silent⟩) (by decide)
  · exact vacant.vacantReport (resting_onCtx (st := .vacant) rfl idle.call (by decide)) r

theorem unpaidCutReport (h : s.positionsSound) (idle : resting s p) (r : Report) (x : Option Serial) :
    (s.unpaidCutReport p r x).positionsSound := by
  have rest : ∀ t : State, t.positionsSound → resting t p → (if r.zone ≠ 0 then t
      else if r.present = false then t.onCtx p fun c => { c with state := .vacant }
      else if (t.ctx p).refusedSerial.isSome then t.onCtx p fun c => { c with state := .refused }
      else (t.onCtx p fun c => { c with state := .vacant }).vacantReport p r).positionsSound := by
    intro t sound still
    split
    · exact sound
    · exact sound.vacantOrRefused still r
  refine rest _ ?_ ?_
  · split
    · exact h.onCtx_items fun _ => id
    · exact h
  · split
    · exact resting_items idle (fun _ => rfl) fun _ => rfl
    · exact idle

theorem cutCard (h : s.positionsSound) (idle : resting s p) (r : Report) (x : Option Serial) :
    (s.cutCard p r x).positionsSound ∧ resting (s.cutCard p r x) p := by
  have ended := h.endClaim (p := p) false idle.state.2.2.1
  have still := endClaim_resting idle (h p).fair false
  unfold State.cutCard
  dsimp only
  repeat' split
  · exact ⟨ended, still⟩
  · exact ⟨h.onCtx_items fun _ => id, resting_items idle (fun _ => rfl) fun _ => rfl⟩
  · exact ⟨ended, still⟩
  · exact ⟨h, idle⟩
  · have same : ∀ c : Position, ∀ d : Position, (d = c.clearRefused ∨ d = c) →
        ∀ e : Position, (e = { d.abandon with candidate := none } ∨ e = d) →
        (c.sound → e.sound) ∧ e.state = c.state ∧ e.call = c.call := by
      rintro c d (rfl | rfl) e (rfl | rfl) <;> exact ⟨id, rfl, rfl⟩
    have either : ∀ (α : Type) (q : Prop) [Decidable q] (a b : α), (if q then a else b) = a ∨ (if q then a else b) = b := by
      intro α q _ a b
      split
      · exact .inl rfl
      · exact .inr rfl
    have kept := fun c : Position => same c (if differs x c.refusedSerial then c.clearRefused else c) (either _ _ _ _)
      (if c.outstanding.isSome ∧ differs x c.candidate = true then
        { (if differs x c.refusedSerial then c.clearRefused else c).abandon with candidate := none }
        else (if differs x c.refusedSerial then c.clearRefused else c)) (either _ _ _ _)
    exact ⟨h.onCtx_items fun c => (kept c).1, resting_items idle (fun c => (kept c).2.1) fun c => (kept c).2.2⟩

theorem cutEnd (h : s.positionsSound) (idle : resting s p) (r : Report) : (s.cutEnd p r).positionsSound := by
  have into : ∀ st : PosState, (st ≠ .off ∧ st ≠ .lost ∧ st ≠ .metered ∧ st ≠ .grace) →
      (s.onCtx p fun c => { c with state := st }).positionsSound := fun st away =>
    h.enter (st := st) rfl idle.call (fun f => ⟨f.items, f.working, f.silent⟩) away
  unfold State.cutEnd
  dsimp only
  repeat' split
  · exact into _ (by decide)
  · exact into _ (by decide)
  · exact into _ (by decide)
  · exact into _ (by decide)
  · exact (into .vacant (by decide)).vacantReport (resting_onCtx (st := .vacant) rfl idle.call (by decide)) r

theorem cutReport (h : s.positionsSound) (idle : resting s p) (r : Report) (x : Option Serial) :
    (s.cutReport p r x).positionsSound := by
  obtain ⟨sound, still⟩ := h.cutCard idle r x
  unfold State.cutReport
  dsimp only
  repeat' split
  · exact h.unpaidCutReport idle r x
  · exact sound.cutEnd still r
  · exact sound

/-! ### METERED -/

theorem hangUp (h : s.positionsSound) : (s.hangUp p).positionsSound :=
  h.enter (st := .held) rfl rfl (fun f => ⟨f.items, f.working, f.silent⟩) (by decide)

theorem meteredRest (h : s.positionsSound) (r : Report) (x : Option Serial) : (s.meteredRest p r x).positionsSound := by
  unfold State.meteredRest
  repeat' split
  · exact h.hangUp.heldReport (resting_onCtx (st := .held) rfl rfl (by decide)) r x
  · refine State.positionsSound_of_others h (fun _ other => State.endClaim_onCtx_other other _ _ s) ?_
    rw [State.ctx_onCtx_same, Position.settled_sound]
    exact (State.endClaim_position p false (h p).fair).1.enterCut _
  · exact h

/-! ### GRACE -/

theorem onSub (h : s.positionsSound) (sub : SubState) (f : Position → Position)
    (same : ∀ c : Position, c.sound → (f c).sound) : (s.onCtx p fun c => (f c).setSub sub).positionsSound :=
  State.positionsSound_onCtx h (Position.setSub_sound (same _ (h p)) sub)

theorem graceCard (h : s.positionsSound) (state : (s.ctx p).state = .grace) (r : Report) (x : Option Serial) :
    (s.graceCard p r x).positionsSound := by
  have metered : (s.ctx p).state ≠ .metered := by rw [state]; decide
  have ended := h.endClaim (p := p) false metered
  have still : ((s.endClaim p false).ctx p).state ≠ .metered := by rw [endClaim_state]; exact metered
  have cleared : (s.onCtx p Position.clearRefused).positionsSound := h.onCtx_items fun _ => id
  have same : ((s.onCtx p Position.clearRefused).ctx p).state ≠ .metered := by rw [State.ctx_onCtx_same]; exact metered
  unfold State.graceCard
  dsimp only
  repeat' split
  · exact ended.onSub _ id fun _ => id
  · exact ended.sendClaim _ still
  · exact h
  · exact h
  · exact h.onSub _ id fun _ => id
  · exact h
  · exact h.onSub _ id fun _ => id
  · exact h.sendClaim _ metered
  · exact h
  · exact h.onSub _ Position.clearRefused fun _ => id
  · exact h
  · exact cleared.sendClaim _ same
  · exact h
  · exact h.onSub _ (fun c => { c.abandon with candidate := none }) fun _ => id
  · exact h.onSub _ (fun c => { c.abandon with candidate := none, highHalf := none }) fun _ => id
  · exact h.sendClaim _ metered
  · exact h
  · exact h

theorem graceEnd (h : s.positionsSound) : (s.graceEnd p).positionsSound := by
  rw [State.graceEnd_eq]
  exact h.enter rfl rfl (fun f => ⟨f.items, f.working, f.silent⟩) (afterGrace_away _ _)

theorem graceRest (h : s.positionsSound) (state : (s.ctx p).state = .grace) (r : Report) (x : Option Serial) :
    (s.graceRest p r x).positionsSound := by
  have card := h.graceCard state r x
  unfold State.graceRest
  dsimp only
  repeat' split
  · exact card
  · exact card.graceEnd
  · exact card.hangUp
  · exact card

/-! ### The pulses -/

theorem chargePulses (rate interval n : Nat) (h : s.positionsSound) (off : (s.ctx p).state ≠ .off)
    (lost : (s.ctx p).state ≠ .lost) : (s.chargePulses p rate interval n).positionsSound := by
  induction n generalizing s with
  | zero => exact h
  | succ n ih =>
    unfold State.chargePulses
    dsimp only
    split
    · exact h
    · next k _ =>
      split
      · next pays =>
        exact ih ((Stands.meter _ _ (Stands.claim_of_pays pays) off lost).sound h)
          (by rw [State.meter_state]; decide) (by rw [State.meter_state]; decide)
      · exact State.positionsSound_onCtx h ((h p).fair.enterGrace _ _ _)

/-- The call of a position changes, with the same timers, amount and zone. -/
theorem setCall (h : s.positionsSound) {k m : Call} (call : (s.ctx p).call = some k) (amount : m.amount ≤ Config.maxAmount)
    (metered : (s.ctx p).state = .metered → m.amount = k.amount) (grace : m.graceTimer = k.graceTimer)
    (interval : m.intervalTimer = k.intervalTimer) (zone : m.zone = k.zone) :
    (s.onCtx p fun c => { c with call := some m }).positionsSound := by
  obtain ⟨small, inGrace, inMetered⟩ := (h p).call call
  obtain ⟨calls, claim, -⟩ := h p
  refine State.positionsSound_onCtx h (Position.fair.sound_call (c := { s.ctx p with call := some m }) (k := m)
    ⟨(h p).fair.items, (h p).fair.working, (h p).fair.silent⟩ rfl (calls.1 (by rw [call]; rfl)) claim ?_)
  refine ⟨amount, fun e => ?_, fun e => ?_⟩
  · rw [grace, interval]
    exact inGrace e
  · rw [grace, interval, zone, metered e]
    exact inMetered e

theorem Call.countPulse_kept (k : Call) (pulse : BitVec 4) : (k.countPulse pulse).amount = k.amount ∧
    (k.countPulse pulse).graceTimer = k.graceTimer ∧ (k.countPulse pulse).intervalTimer = k.intervalTimer ∧
    (k.countPulse pulse).zone = k.zone := by
  unfold Call.countPulse
  split <;> exact ⟨rfl, rfl, rfl, rfl⟩

theorem meteredPulses (h : s.positionsSound) (state : (s.ctx p).state = .metered) (pulse : BitVec 4) :
    (s.meteredPulses p pulse).positionsSound := by
  unfold State.meteredPulses
  split
  · next k cls call _ =>
    obtain ⟨amount, grace, interval, zone⟩ := Call.countPulse_kept k pulse
    have counted := h.setCall (m := k.countPulse pulse) call (amount ▸ ((h p).call call).1) (fun _ => amount) grace
      interval zone
    have read := (Stands.afterTariffRead k.zone _).sound counted
    have metered : ((State.afterTariffRead k.zone (s.onCtx p fun c => { c with call := some (k.countPulse pulse) })).ctx
        p).state = .metered := by
      rw [Stands.afterTariffRead_ctx, State.ctx_onCtx_same]
      exact state
    dsimp only
    split
    · exact counted
    split
    · exact read.enterCut _
    · exact read.chargePulses _ _ _ (by rw [metered]; decide) (by rw [metered]; decide)
  · exact h

theorem gracePulses (h : s.positionsSound) (state : (s.ctx p).state = .grace) (pulse : BitVec 4) :
    (s.gracePulses p pulse).positionsSound := by
  unfold State.gracePulses
  split
  · next k call =>
    obtain ⟨amount, grace, interval, zone⟩ := Call.countPulse_kept k pulse
    have counted := h.setCall (m := k.countPulse pulse) call (amount ▸ ((h p).call call).1) (fun _ => amount) grace
      interval zone
    have read := (Stands.afterTariffRead k.zone _).sound counted
    dsimp only
    split
    · exact counted
    split
    · exact read.enterCut _
    split
    · exact read.enterCut _
    · next e _ small =>
      have now : (State.afterTariffRead k.zone (s.onCtx p fun c => { c with call := some (k.countPulse pulse) })).ctx p =
          { s.ctx p with call := some (k.countPulse pulse) }.settled := by
        rw [Stands.afterTariffRead_ctx, State.ctx_onCtx_same]
      obtain ⟨graceTimer, intervalTimer, zoneKept⟩ := Call.owe_timers (k.rateInGrace e (s.ctx p).cls) e.interval.toNat
        (k.newPulses pulse) (k.countPulse pulse)
      refine read.setCall (k := k.countPulse pulse) (by rw [now]; rfl) (not_lt.1 small) (fun m => ?_) graceTimer
        intervalTimer zoneKept
      rw [now] at m
      exact absurd (m.symm.trans state) (by decide)
  · exact h

theorem pulses (h : s.positionsSound) (pulse : BitVec 4) : (s.pulses p pulse).positionsSound := by
  unfold State.pulses
  split
  · next state => exact h.meteredPulses state pulse
  · next state => exact h.gracePulses state pulse
  · exact h

/-! ### A report and a silent cycle -/

theorem reportByState (h : s.positionsSound) (r : Report) (x : Option Serial) : (s.reportByState p r x).positionsSound := by
  unfold State.reportByState
  split
  · exact h
  · exact h
  · next st => exact h.vacantReport (h.rest st (by decide)) r
  · next st => exact h.readingReport (h.rest st (by decide)) r x
  · next st => exact h.checkingReport (h.rest st (by decide)) r x
  · next st => exact h.waitingReport (h.rest st (by decide)) r x
  · next st => exact h.heldReport (h.rest st (by decide)) r x
  · next st => exact h.refusedReport (h.rest st (by decide)) r x
  · exact h.meteredRest r x
  · next st => exact h.graceRest st r x
  · next st => exact h.cutReport (h.rest st (by decide)) r x

theorem validReport (h : s.positionsSound) (r : Report) : (s.validReport p r).positionsSound := by
  unfold State.validReport
  split
  · exact h
  · refine (State.positionsSound.pulses ?_ _).onCtx_items (f := fun c => { c with highHalf := highHalfAfter r })
      (fun _ => id) |>.reportByState r _
    refine h.onCtx_items fun c sound => ?_
    have silenced : ({ c with silentCount := 0, lastHook := r.hook } : Position).sound := by
      obtain ⟨call, metered, empty, items, below, -, sound⟩ := sound
      exact ⟨call, metered, empty, items, below, Nat.zero_le _, sound⟩
    dsimp only
    split
    · next lost =>
      exact Position.fair.sound (c := { c with
        silentCount := 0, lastHook := r.hook, state := .vacant, highHalf := none })
        ⟨silenced.fair.items, silenced.fair.working, silenced.fair.silent⟩
        (sound.call_none (by rw [lost]; decide) (by rw [lost]; decide)) nofun nofun nofun
    · exact silenced

theorem silentCycle (h : s.positionsSound) : (s.silentCycle p).positionsSound := by
  have counted : (s.onCtx p fun c => { c with silentCount := min 15 (c.silentCount + 1) }).positionsSound :=
    h.onCtx_items fun c sound => by
      obtain ⟨call, metered, empty, items, below, -, sound⟩ := sound
      exact ⟨call, metered, empty, items, below, Nat.min_le_left _ _, sound⟩
  unfold State.silentCycle
  dsimp only
  repeat' split
  · exact h
  · exact (Stands.enterLost p _).sound counted
  · exact counted

theorem handOn (h : s.positionsSound) (c : ReportClass × Option (BitVec 38)) : (s.handOn p c).positionsSound := by
  have classed : (s.onCtx p fun x => { x with lastClass := c.1 }).positionsSound := h.onCtx_items fun _ => id
  unfold State.handOn
  dsimp only
  split
  · exact classed.validReport _
  · exact classed.silentCycle

end State.positionsSound

end Sys2Proof.Machine
end

section
/-!
PROOFS. The laws of the positions under every command (O57).
-/

namespace Sys2Proof.Machine

/-! ### The host's actions -/

namespace Stands

theorem onPort (f : Port → Port) (s : State) : Stands s (s.onPort f) := of_positions rfl

theorem answerAction (kind : ActionKind) (code : ReplyCode) (data : Word) (s : State) :
    Stands s (s.answerAction kind code data) := of_positions rfl

theorem answerLatched (code : ReplyCode) (data : Word) (s : State) : Stands s (s.answerLatched code data) := of_positions rfl

theorem await (a : HostAction) (g : GranuleName) (s : State) : Stands s (s.await a g) :=
  Stands.trans (t := (s.answer .noReply 1).onPort fun p => { p with result := .working a }) (of_positions rfl)
    (requestRead _ _)

theorem offerValue {x : Slot} {i : Image} {origin : Origin} {s t : State} (h : s.offerValue x i origin = some t) :
    Stands s t := by
  unfold State.offerValue at h
  split at h
  · cases h; exact of_positions rfl
  · split at h
    · cases h; exact of_positions rfl
    · nomatch h

theorem applyAction (kind : ActionKind) (x : Slot) (i : Image) (s : State) : Stands s (s.applyAction kind x i) := by
  unfold State.applyAction
  split
  · exact answerAction _ _ _ s
  · split
    · exact answerAction _ _ _ s
    · next offered => exact (offerValue offered).trans (answerAction _ _ _ _)

theorem fromStepSix (kind : ActionKind) (e : DirEntry) (r : ActionRead) (s : State) :
    Stands s (s.fromStepSix kind e r) := by
  unfold State.fromStepSix
  split
  · exact answerAction _ _ _ s
  · split
    · exact (blockThrough _ s).trans (answerAction _ _ _ _)
    · repeat' split
      · exact answerAction _ _ _ s
      · exact answerAction _ _ _ s
      · exact answerAction _ _ _ s
      · exact applyAction _ _ _ s
      · exact applyAction _ _ _ s
      · exact await _ _ s

theorem onUnlockedCard {act : DirEntry → State → State} (h : ∀ e s, Stands s (act e s)) (s : State) :
    Stands s (s.onUnlockedCard act) := by
  unfold State.onUnlockedCard
  repeat' split
  · exact answerLatched _ _ s
  · exact answerLatched _ _ s
  · exact h _ s

theorem finishQuery (kind : ActionKind) (e : DirEntry) (identity : Option Identity) (image : Option Image)
    (s : State) : Stands s (s.finishQuery kind e identity image) := by
  unfold State.finishQuery
  dsimp only
  split <;> exact of_positions rfl

theorem queryValue (kind : ActionKind) (e : DirEntry) (identity : Option Identity) (s : State) :
    Stands s (s.queryValue kind e identity) := by
  unfold State.queryValue
  split
  · exact finishQuery _ _ _ _ s
  · exact finishQuery _ _ _ _ s
  · exact await _ _ s

theorem startQuery (kind : ActionKind) (e : DirEntry) (s : State) : Stands s (s.startQuery kind e) := by
  unfold State.startQuery
  split
  · exact finishQuery _ _ _ _ s
  · exact await _ _ s

theorem actionResolved (a : HostAction) (identity : Option Identity) (image : Option Image) (s : State) :
    Stands s (s.actionResolved a identity image) := by
  unfold State.actionResolved
  split
  · exact refl s
  · split
    · split
      · exact queryValue _ _ _ s
      · exact finishQuery _ _ _ _ s
    · split
      · exact queryValue _ _ _ s
      · exact finishQuery _ _ _ _ s
    · exact fromStepSix _ _ _ s

theorem foundUnreadable (x : Slot) (s : State) : Stands s (s.foundUnreadable x) := of_positions rfl

theorem actionIdentity (o : ReadOutcome Identity) (s : State) : Stands s (s.actionIdentity o) := by
  unfold State.actionIdentity
  split
  · next a _ =>
    have read : Stands s (if o.valid.isNone then s.foundUnreadable a.slot else s) := by
      split
      · exact foundUnreadable _ s
      · exact refl s
    dsimp only
    split
    · exact read
    · exact read.trans (queryValue _ _ _ _)
  · exact refl s

/-- A working action's read of a value copy, first or second. -/
theorem actionRead (a : HostAction) (copy : Copy) (o : ReadOutcome (Image × Gen)) (second : Bool)
    (identity : Option Identity) (s : State) : Stands s (match o.valid with
      | some (i, g) =>
        (if o.isCorrected then (if second then s.noteLive a.slot copy g else s).offerRefresh a.slot
          else if second then s.noteLive a.slot copy g else s).actionResolved a identity (some i)
      | none =>
        if second then (s.foundUnreadable a.slot).actionResolved a identity none
        else s.await { a with stage := .other identity } copy.other.granule) := by
  split
  · exact (noteAndRefresh _ _ _ second o.isCorrected s).trans (actionResolved _ _ _ _)
  · split
    · exact (foundUnreadable _ s).trans (actionResolved _ _ _ _)
    · exact await _ _ s

theorem actionValue (copy : Copy) (o : ReadOutcome (Image × Gen)) (s : State) : Stands s (s.actionValue copy o) := by
  unfold State.actionValue
  split
  · next a _ =>
    dsimp only
    split
    · exact refl s
    · exact actionRead a copy o false _ s
    · exact actionRead a copy o true _ s
  · exact refl s

/-! ### The store's own events -/

theorem rebuildNext (x : Slot) (s : State) : Stands s (s.rebuildNext x) := by
  unfold State.rebuildNext
  split <;> exact of_positions rfl

theorem onDir (f : Directory → Directory) (s : State) : Stands s (s.onDir f) := of_positions rfl

theorem rebuildOrphan (x : Slot) (s : State) : Stands s (s.rebuildOrphan x) := (onDir _ s).trans (rebuildNext x _)

theorem rebuildIdentity (x : Slot) (o : ReadOutcome Identity) (s : State) : Stands s (s.rebuildIdentity x o) := by
  unfold State.rebuildIdentity
  repeat' split
  · exact rebuildOrphan x s
  · exact onDir _ s
  · exact (onDir _ s).trans (rebuildNext x _)
  · exact rebuildOrphan x s

theorem offerValue_getD (x : Slot) (i : Image) (origin : Origin) (s : State) :
    Stands s ((s.offerValue x i origin).getD s) := by
  cases h : s.offerValue x i origin with
  | none => exact refl s
  | some t => exact offerValue h

theorem rebuildValue (x : Slot) (o : ReadOutcome (Image × Gen)) (s : State) : Stands s (s.rebuildValue x o) := by
  unfold State.rebuildValue
  split
  · exact onDir _ s
  · unfold State.rebuildIndex
    dsimp only
    refine trans ?_ (rebuildNext x _)
    repeat' split
    · exact (onDir _ s).trans (offerValue_getD _ _ _ _)
    · exact onDir _ s
    · exact of_positions rfl
  · exact refl s

theorem rebuildAsks (s : State) : Stands s s.rebuildAsks := by
  unfold State.rebuildAsks
  repeat' split
  · exact refl s
  · exact requestRead _ s
  · exact refl s

theorem countCorrected (corrected : Bool) (s : State) : Stands s (s.countCorrected corrected) := of_positions rfl

theorem deliverRead (r : ReadRequest) (s : State) : Stands s (s.deliverRead r) := by
  have identity : ∀ o t, Stands t (t.identityRead r o) := by
    intro o t
    unfold State.identityRead
    split
    · exact rebuildIdentity _ o t
    · exact actionIdentity o t
    · exact refl t
  have value : ∀ c o t, Stands t (t.valueRead r c o) := by
    intro c o t
    unfold State.valueRead
    split
    · exact rebuildValue _ o t
    · exact actionValue c o t
    · exact claimRead _ c o t
  unfold State.deliverRead
  dsimp only
  split
  · exact (countCorrected _ s).trans (identity _ _)
  · exact (countCorrected _ s).trans (value _ _ _)
  · exact (countCorrected _ s).trans (value _ _ _)

theorem readComplete (change : CellChange) (s : State) : Stands s (s.readComplete change) := by
  unfold State.readComplete
  dsimp only
  split
  · exact refl s
  · next r _ =>
    exact ((rebuildAsks s).trans (Stands.trans (t := s.rebuildAsks.onRecord r.slot fun x => x.after r.granule change)
      (of_positions rfl) (deliverRead r _))).trans (of_positions rfl)

theorem entryStart (s : State) : Stands s s.entryStart := by
  unfold State.entryStart
  repeat' split
  all_goals exact of_positions rfl

theorem offerRefresh (x : Slot) (s : State) : Stands s (s.offerRefresh x) :=
  of_positions (offerRefresh_positions x s) (Calls.offerRefresh (P := fun _ => True) x s).lines

theorem valueWritten (x : Slot) (c : Copy) (g : Gen) (corrected : Bool) (s : State) :
    Stands s (s.valueWritten x c g corrected) := by
  unfold State.valueWritten
  cases corrected
  · exact of_positions rfl
  · exact Stands.trans (t := (s.noteLive x c g).endFlight) (of_positions rfl) (offerRefresh x _)

theorem valueFailed (e : QueueEntry) (s : State) : Stands s (s.valueFailed e) := by
  unfold State.valueFailed
  dsimp only
  repeat' split
  all_goals exact of_positions rfl

theorem valueWriteComplete (left : Granule RawValue) (s : State) : Stands s (s.valueWriteComplete left) := by
  unfold State.valueWriteComplete
  split
  · next f _ =>
    split
    · next c g _ =>
      dsimp only
      refine Stands.trans (t := (s.onRecord f.entry.slot fun r => r.withCopy c
        ((s.found f (blankRecord.withCopy c left)).copy c)).countCorrected
        (readValue ((s.found f (blankRecord.withCopy c left)).copy c)).isCorrected) (of_positions rfl) ?_
      split
      · exact valueWritten _ _ _ _ _
      · refine Stands.trans ?_ (valueFailed _ _)
        split
        · exact offerRefresh _ _
        · exact refl _
    · exact refl s
  · exact refl s

theorem issueStepComplete (left : Record) (s : State) : Stands s (s.issueStepComplete left) := by
  unfold State.issueStepComplete
  dsimp only
  repeat' split
  all_goals exact of_positions rfl

theorem eraseComplete (left : Record) (s : State) : Stands s (s.eraseComplete left) := by
  unfold State.eraseComplete
  dsimp only
  repeat' split
  all_goals exact of_positions rfl

end Stands

/-! ### Every command -/

/-- A command keeps the laws of the positions and the lines that they stand on. -/
structure Upholds (s t : State) : Prop where
  sound : s.positionsSound → t.positionsSound
  served : s.positionsServed → t.positionsServed

namespace Upholds

variable {s t u : State}

theorem refl (s : State) : Upholds s s := ⟨id, id⟩

theorem trans (h : Upholds s t) (k : Upholds t u) : Upholds s u := ⟨k.sound ∘ h.sound, k.served ∘ h.served⟩

theorem of_stands (h : Stands s t) : Upholds s t := ⟨h.sound, fun served p on => by
  obtain off | ⟨before, lost⟩ := h.states p
  · exact absurd off on
  · have line : t.line (lineOf p) = s.line (lineOf p) := by rw [State.line, h.lines]; rfl
    rw [line]
    obtain driven | ⟨faulted, was⟩ := served p before
    · exact .inl driven
    · exact .inr ⟨faulted, lost was⟩⟩

theorem of_positions (h : t.positions = s.positions) (lines : t.lines = s.lines := by rfl) : Upholds s t :=
  of_stands (.of_positions h lines)

/-- A line changes, and is driven or FAULTED as before. -/
theorem onLine (l : LineIx) (f : Line → Line) (s : State) (driven : (s.line l).driven = true → (f (s.line l)).driven = true)
    (faulted : (s.line l).state = .faulted → (f (s.line l)).state = .faulted) : Upholds s (s.onLine l f) :=
  ⟨fun h => h, fun served p on => by
    obtain was | ⟨was, lost⟩ := served p on
    · refine .inl ?_
      rw [State.line_onLine]
      split
      · next e => exact driven (by rw [e]; exact was)
      · exact was
    · refine .inr ⟨?_, lost⟩
      rw [State.line_onLine]
      split
      · next e => exact faulted (by rw [e]; exact was)
      · exact was⟩

theorem onLine_same (l : LineIx) (f : Line → Line) (s : State) (same : (f (s.line l)).state = (s.line l).state) :
    Upholds s (s.onLine l f) :=
  onLine l f s (fun h => by unfold Line.driven at h ⊢; rw [same]; exact h) fun h => same.trans h

/-! ### The taking of a frame -/

theorem takeFrame {act : State → State} (h : ∀ s, Upholds s (act s)) (s : State) : Upholds s (takeFrame act s) := by
  have ended : Upholds s (s.endTransfer true) := of_positions rfl
  unfold Machine.takeFrame
  dsimp only
  repeat' split
  · exact refl s
  · exact ended.trans (h _)
  · exact ended

theorem whenRunning {act : State → State} (h : ∀ s, Upholds s (act s)) (s : State) : Upholds s (whenRunning act s) := by
  unfold Machine.whenRunning
  split
  · exact h s
  · exact of_positions rfl

theorem latched {act : State → State} (h : ∀ s, Upholds s (act s)) (s : State) : Upholds s (latched act s) := by
  unfold Machine.latched
  repeat' split
  · exact of_positions rfl
  · exact h s
  · exact of_positions rfl

theorem unlessReset {act : State → State} (h : ∀ s, Upholds s (act s)) (s : State) : Upholds s (unlessReset act s) := by
  unfold Machine.unlessReset
  split
  · exact refl s
  · exact h s

/-! ### The lines -/

theorem driven_not_faulted {l : Line} (h : l.driven = true) : l.state ≠ .faulted := by
  intro e
  simp [Line.driven, e] at h

theorem forPositions_other {f : Pos → State → State} (h : ∀ p q s, p ≠ q → (f p s).ctx q = s.ctx q) {ps : List Pos} {q : Pos}
    (away : q ∉ ps) (s : State) : (forPositions ps f s).ctx q = s.ctx q := by
  induction ps generalizing s with
  | nil => rfl
  | cons p ps ih =>
    have other : p ≠ q := fun e => away (e ▸ List.mem_cons_self)
    exact (ih (fun rest => away (List.mem_cons_of_mem _ rest)) _).trans (h p q s other)

/-- What an action gives each position it is made on. -/
theorem forPositions_each {f : Pos → State → State} {P : Position → Prop} (here : ∀ p s, P ((f p s).ctx p))
    (others : ∀ p q s, p ≠ q → (f p s).ctx q = s.ctx q) {ps : List Pos} {p : Pos} (mem : p ∈ ps) (s : State) :
    P ((forPositions ps f s).ctx p) := by
  induction ps generalizing s with
  | nil => nomatch mem
  | cons q ps ih =>
    show P ((forPositions ps f (f q s)).ctx p)
    by_cases again : p ∈ ps
    · exact ih again _
    · obtain rfl | rest := List.mem_cons.1 mem
      · rw [forPositions_other others again]
        exact here p s
      · exact absurd rest again

theorem mem_allSlots : ∀ k : Fin 8, k ∈ allSlots := by decide

theorem lineOf_posOf (l : LineIx) (k : Fin 8) : lineOf (posOf l k) = l := by
  apply Fin.ext
  show (8 * l.val + k.val) / 8 = l.val
  omega

theorem mem_positionsOf (p : Pos) (l : LineIx) : p ∈ positionsOf l ↔ lineOf p = l := by
  constructor
  · intro h
    obtain ⟨k, -, rfl⟩ := List.mem_map.1 h
    exact lineOf_posOf l k
  · rintro rfl
    refine List.mem_map.2 ⟨⟨p.val % 8, by omega⟩, mem_allSlots _, ?_⟩
    apply Fin.ext
    show 8 * (p.val / 8) + p.val % 8 = p.val
    omega

/-- Where a command acts on one line and its positions. -/
theorem served_of_line {s t : State} (l : LineIx) (served : s.positionsServed)
    (others : ∀ p, lineOf p ≠ l → t.ctx p = s.ctx p) (lines : ∀ k, k ≠ l → t.line k = s.line k)
    (here : ∀ p, lineOf p = l → (t.ctx p).state ≠ .off →
      (t.line l).driven = true ∨ (t.line l).state = .faulted ∧ (t.ctx p).state = .lost) : t.positionsServed := by
  intro p on
  by_cases e : lineOf p = l
  · rw [e]
    exact here p e on
  · rw [others p e] at on ⊢
    rw [lines _ e]
    exact served p on

theorem line_of_lines {s t : State} (h : t.lines = s.lines) (l : LineIx) : t.line l = s.line l := by
  rw [State.line, h]; rfl

/-- An action on the positions of a line that is being stopped. -/
theorem stopLine {f : Pos → State → State} (l : LineIx) (st : LineState) (stands : ∀ p s, Stands s (f p s))
    (others : ∀ p q s, p ≠ q → (f p s).ctx q = s.ctx q) (s : State)
    (here : s.positionsServed → ∀ p, lineOf p = l →
      ((forPositions (positionsOf l) f (s.onLine l (Line.stop st))).ctx p).state ≠ .off → st = .faulted ∧
      ((forPositions (positionsOf l) f (s.onLine l (Line.stop st))).ctx p).state = .lost) :
    Upholds s (forPositions (positionsOf l) f (s.onLine l (Line.stop st))) := by
  have all := Stands.forPositions (positionsOf l) stands (s.onLine l (Line.stop st))
  refine ⟨fun h => all.sound h, fun served => served_of_line l served (fun p away => ?_) (fun k away => ?_)
    fun p e on => ?_⟩
  · exact forPositions_other others (fun mem => away ((mem_positionsOf p l).1 mem)) _
  · rw [line_of_lines all.lines, State.line_onLine_other (Ne.symm away)]
  · rw [line_of_lines all.lines, State.line_onLine_same]
    exact .inr (here served p e on)

theorem enterOff_others (p q : Pos) (s : State) (h : p ≠ q) : (s.enterOff p).ctx q = s.ctx q := by
  unfold State.enterOff
  split
  · rfl
  · exact Stands.giveUp_others p _ s q h

theorem enterOff_state (p : Pos) (s : State) : ((s.enterOff p).ctx p).state = .off := by
  unfold State.enterOff
  split
  · next off => exact off
  · exact Stands.giveUp_state p _ s

theorem lostToOff_others (p q : Pos) (s : State) (h : p ≠ q) : (s.lostToOff p).ctx q = s.ctx q := by
  unfold State.lostToOff
  split
  · exact enterOff_others p q s h
  · rfl

theorem lostToOff_state (p : Pos) (s : State) : ((s.lostToOff p).ctx p).state ≠ .lost := by
  unfold State.lostToOff
  split
  · rw [enterOff_state]; decide
  · next on => exact on

theorem enterLost_others (p q : Pos) (s : State) (h : p ≠ q) : (s.enterLost p).ctx q = s.ctx q := by
  unfold State.enterLost
  dsimp only
  repeat' split
  · rfl
  · exact Stands.giveUp_others p _ s q h
  · exact Stands.giveUp_others p _ s q h

theorem enterLost_state (p : Pos) (s : State) :
    ((s.enterLost p).ctx p).state = .off ∨ ((s.enterLost p).ctx p).state = .lost := by
  unfold State.enterLost
  dsimp only
  repeat' split
  · next there => exact there
  · exact .inr (Stands.giveUp_state p _ s)
  · exact .inr (Stands.giveUp_state p _ s)

theorem disableLine (l : LineIx) (s : State) : Upholds s (s.disableLine l) := by
  have off := stopLine (f := State.enterOff) l .off Stands.enterOff enterOff_others s fun _ p e on =>
    absurd (forPositions_each (P := fun c => c.state = .off) enterOff_state enterOff_others
      ((mem_positionsOf p l).2 e) _) on
  unfold State.disableLine
  split
  · exact refl s
  · next faulted =>
    refine stopLine (f := State.lostToOff) l .off Stands.lostToOff lostToOff_others s fun served p e on => ?_
    have found := forPositions_each (P := fun c => c.state ≠ .lost) lostToOff_state lostToOff_others
      ((mem_positionsOf p l).2 e) (s.onLine l (Line.stop .off))
    obtain gone | ⟨before, lost⟩ := (Stands.forPositions (positionsOf l) Stands.lostToOff
      (s.onLine l (Line.stop .off))).states p
    · exact absurd gone on
    · obtain driven | ⟨-, was⟩ := served p before
      · rw [e] at driven
        exact absurd faulted (driven_not_faulted driven)
      · exact absurd (lost was) found
  · exact off
  · exact off

theorem lineFault (l : LineIx) (s : State) : Upholds s (s.lineFault l) := by
  have raised : ∀ t : State, Upholds t (t.raiseLineFault l) := fun t => of_positions rfl
  unfold State.lineFault
  split
  · refine (stopLine (f := State.enterLost) l .faulted Stands.enterLost enterLost_others s fun _ p e on => ?_).trans
      (raised _)
    obtain off | lost := forPositions_each (P := fun c => c.state = .off ∨ c.state = .lost) enterLost_state enterLost_others
      ((mem_positionsOf p l).2 e) (s.onLine l (Line.stop .faulted))
    · exact absurd off on
    · exact ⟨rfl, lost⟩
  · exact refl s

theorem leaveOff_sound {p : Pos} {s : State} (h : s.positionsSound) (off : (s.ctx p).state = .off) :
    (s.leaveOff p).positionsSound := by
  have idle := (h p).call_none (by rw [off]; decide) (by rw [off]; decide)
  exact State.positionsSound_onCtx h (Position.fair.sound (c := { s.ctx p with
    state := .vacant, silentCount := 0, highHalf := none })
    ⟨(h p).fair.items, (h p).fair.working, Nat.zero_le _⟩ idle nofun nofun nofun)

theorem preparePosition_sound (p : Pos) {s : State} (h : s.positionsSound) : (s.preparePosition p).positionsSound := by
  have silenced : ∀ c : Position, c.sound → ({ c with silentCount := 0, lastClass := .none } : Position).sound := by
    intro c sound
    obtain ⟨call, metered, empty, items, below, -, sound⟩ := sound
    exact ⟨call, metered, empty, items, below, Nat.zero_le _, sound⟩
  unfold State.preparePosition
  dsimp only
  split
  · next there => exact (leaveOff_sound h there.1).onCtx_items silenced
  · exact h.onCtx_items silenced

theorem preparePosition_others (p q : Pos) (s : State) (h : p ≠ q) : (s.preparePosition p).ctx q = s.ctx q := by
  unfold State.preparePosition
  dsimp only
  rw [State.ctx_onCtx_other h]
  split
  · exact State.ctx_onCtx_other h _ _
  · rfl

theorem preparePosition_lines (p : Pos) (s : State) : (s.preparePosition p).lines = s.lines := by
  unfold State.preparePosition
  dsimp only
  split <;> rfl

theorem prepared (ps : List Pos) (s : State) : (s.positionsSound → (forPositions ps State.preparePosition s).positionsSound) ∧
    (forPositions ps State.preparePosition s).lines = s.lines := by
  induction ps generalizing s with
  | nil => exact ⟨id, rfl⟩
  | cons p ps ih =>
    obtain ⟨sound, lines⟩ := ih (s.preparePosition p)
    exact ⟨fun h => sound (preparePosition_sound p h), lines.trans (preparePosition_lines p s)⟩

theorem enableLine (l : LineIx) (s : State) : Upholds s (s.enableLine l) := by
  unfold State.enableLine
  split
  · exact refl s
  · obtain ⟨sound, lines⟩ := prepared (positionsOf l) s
    have others : ∀ p, lineOf p ≠ l → (forPositions (positionsOf l) State.preparePosition s).ctx p = s.ctx p :=
      fun p away => forPositions_other preparePosition_others (fun mem => away ((mem_positionsOf p l).1 mem)) _
    generalize forPositions (positionsOf l) State.preparePosition s = t at sound lines others
    unfold State.openCycle
    refine ⟨fun h => sound h, fun served => served_of_line l served others (fun k away => ?_) fun p _ _ => ?_⟩
    · rw [State.line_onLine_other (Ne.symm away), line_of_lines lines]
    · rw [State.line_onLine_same]
      exact .inl rfl

theorem foldLines {f : State → LineIx → State} (h : ∀ s l, Upholds s (f s l)) (ls : List LineIx) (s : State) :
    Upholds s (ls.foldl f s) := by
  induction ls generalizing s with
  | nil => exact refl s
  | cons l ls ih => exact (h s l).trans (ih _)

theorem startUp (s : State) : Upholds s s.startUp := by
  have enabled := foldLines (fun t l => enableLine l t) allLines (s.onPort fun p => { p with mode := .starting })
  have begun : ∀ t : State, Upholds t (t.rebuildAt 0 .identity) := fun t => of_stands (.onDir _ t)
  exact (((of_stands (.onPort _ s)).trans enabled).trans (begun _)).trans (of_stands (.rebuildAsks _))

theorem beginDrain (s : State) : Upholds s s.beginDrain :=
  (of_stands (.onPort _ s)).trans (foldLines (fun t l => disableLine l t) allLines _)

theorem leaveReset (change : Pins → Pins) (s : State) : Upholds s (s.leaveReset change) := by
  unfold State.leaveReset
  dsimp only
  split
  · exact trans (t := s.onPins change) (of_positions rfl) (startUp _)
  · exact of_positions rfl

/-- A part whose positions are as after a reset. -/
theorem of_clear (h : ∀ p, t.ctx p = .reset) : Upholds s t := by
  refine ⟨fun _ p => ?_, fun _ p on => ?_⟩
  · rw [h]
    exact Position.fair.sound ⟨fun _ => ⟨rfl, rfl, rfl⟩, le_rfl, Nat.zero_le _⟩ rfl nofun nofun fun _ => rfl
  · rw [h] at on
    exact absurd rfl on

theorem pinReset (cut : Cut) (change : Pins → Pins) (s : State) : Upholds s (s.pinReset cut change) :=
  of_clear fun p => by simp [State.ctx, State.pinReset, State.clearVolatile, State.reset]

theorem enterInReset (s : State) : Upholds s s.enterInReset :=
  of_clear fun p => by simp [State.ctx, State.enterInReset, State.clearVolatile, State.reset]

theorem cycleStart (l : LineIx) (s : State) : Upholds s (s.cycleStart l) := by
  unfold State.cycleStart
  dsimp only
  split
  · next due =>
    have driven : (s.line l).driven = true := (Bool.and_eq_true_iff.1 due).1
    refine onLine l _ s (fun _ => ?_) fun faulted => absurd faulted (driven_not_faulted driven)
    show Line.driven { s.line l with state := (s.line l).stateAt _ } = true
    unfold Line.stateAt
    split
    · rfl
    · exact driven
  · exact refl s

/-! ### The close of a window -/

/-- A report is handed to a position of a driven line. -/
theorem handOn {p : Pos} {s : State} (driven : (s.line (lineOf p)).driven = true) (c : ReportClass × Option (BitVec 38)) :
    Upholds s (s.handOn p c) := by
  have classed : Upholds s (s.onCtx p fun x => { x with lastClass := c.1 }) := of_stands (Stands.onCtx_same id rfl)
  refine ⟨fun h => h.handOn c, fun served q on => ?_⟩
  have rest : ∀ t : State, Calls (fun q => q = p) (s.onCtx p fun x => { x with lastClass := c.1 }) t →
      (t.ctx q).state ≠ .off →
      (t.line (lineOf q)).driven = true ∨ (t.line (lineOf q)).state = .faulted ∧ (t.ctx q).state = .lost := by
    intro t calls on
    rw [line_of_lines calls.lines]
    by_cases e : q = p
    · rw [e]; exact .inl driven
    · rw [calls.others q e] at on ⊢
      exact classed.served served q on
  unfold State.handOn at on ⊢
  dsimp only at on ⊢
  split at on
  · exact rest _ (Calls.validReport (P := fun q => q = p) rfl _ _) on
  · exact rest _ (Calls.silentCycle (P := fun q => q = p) rfl _) on

theorem windowClose (l : LineIx) (s : State) : Upholds s (s.windowClose l) := by
  unfold State.windowClose
  dsimp only
  split
  · next k _ =>
    split
    · next driven =>
      refine trans (t := if (s.line l).state = .running then
        s.handOn (posOf l k) (classify (s.line l).cycle (posOf l k) k (s.line l).record) else s) ?_
        (onLine_same l _ _ (by rw [Line.afterClose_eq_closed, Line.closed_state]))
      split
      · refine handOn ?_ _
        rw [lineOf_posOf]
        exact driven
      · exact refl s
    · exact refl s
  · exact refl s

/-! ### The positions -/

theorem enablePosition (p : Pos) (s : State) : Upholds s (s.enablePosition p) := by
  have marked : Upholds s (s.mark p true) := of_stands (Stands.onCtx_same id rfl)
  unfold State.enablePosition
  dsimp only
  split
  · next there =>
    refine ⟨fun h => leaveOff_sound (marked.sound h) ?_, fun served q on => ?_⟩
    · rw [State.mark, State.ctx_onCtx_same]
      exact there.1
    · by_cases e : p = q
      · subst e
        exact .inl there.2
      · have same : ((s.mark p true).leaveOff p).ctx q = (s.mark p true).ctx q := State.ctx_onCtx_other e _ _
        rw [same] at on ⊢
        exact marked.served served q on
  · exact marked

theorem disablePosition (p : Pos) (s : State) : Upholds s (s.disablePosition p) :=
  (of_stands (Stands.onCtx_same (f := fun c => { c with enabled := false }) id rfl)).trans (of_stands (.enterOff p _))

theorem tick (s : State) : Upholds s s.tick := by
  have timed : ∀ p s, Stands s (s.onCtx p fun c => { c with call := c.call.map Call.tick }) := fun p s =>
    Stands.onCtx_same (fun h => h.onCall Call.tick (fun c => { c with call := c.call.map Call.tick }) (fun _ => ⟨rfl, rfl, rfl, rfl, rfl, rfl, rfl⟩)
      fun k => ⟨rfl, by simp [Call.tick], by simp [Call.tick], rfl⟩) rfl
  refine unlessReset (fun s => ?_) s
  exact trans (t := s.onTariff fun t => { t with part := min 9 (t.part + 1) }) (of_positions rfl)
    (of_stands (Stands.forPositions _ timed _))

end Upholds

end Sys2Proof.Machine
end

section
/-!
PROOFS. The passage over the commands for the laws of the positions, and O57.
-/

namespace Sys2Proof.Machine

namespace Upholds

theorem onPort (f : Port → Port) (s : State) : Upholds s (s.onPort f) := of_positions rfl

theorem answer (code : ReplyCode) (data : Word) (s : State) : Upholds s (s.answer code data) := of_positions rfl

theorem stage (f : Staging → Staging) (data : Word) (s : State) : Upholds s (s.stage f data) := of_positions rfl

theorem onTariff (f : Tariff → Tariff) (s : State) : Upholds s (s.onTariff f) := of_positions rfl

theorem onAttention (f : Attention → Attention) (s : State) : Upholds s (s.onAttention f) := of_positions rfl

theorem setLock (region : BitVec 20) (locked : Bool) (s : State) : Upholds s (s.setLock region locked) := by
  unfold State.setLock
  split <;> exact of_positions rfl

theorem onRange (lo hi : Nat) (op : BitVec 20) (f : Nat → Settings → Settings) (s : State) :
    Upholds s (match inRange lo hi op with
      | none => s.answer .range 0
      | some n => (s.onSettings (f n)).answer .ok (toWord n)) := by
  split <;> exact of_positions rfl

theorem onLineOperand (line : BitVec 3) {act : LineIx → State → State} (h : ∀ l s, Upholds s (act l s))
    (s : State) : Upholds s (match lineOperand line with
      | none => s.answer .range 0
      | some l => act l s) := by
  split
  · exact answer _ _ s
  · exact h _ s

theorem onPositionOperand (op : BitVec 20) {act : Pos → State → State} (h : ∀ p s, Upholds s (act p s))
    (s : State) : Upholds s (match positionOperand op with
      | none => s.answer .range 0
      | some p => act p s) := by
  split
  · exact answer _ _ s
  · exact h _ s

theorem hold (l : LineIx) (t : Timing) (s : State) : Upholds s (s.onLine l (Line.hold t)) := onLine_same l _ s rfl

theorem configureLineTiming (l : LineIx) (pitch : BitVec 9) (s : State) : Upholds s
    (let offset := s.port.staging.value.toNat
    let t := (s.line l).held.withWindows offset pitch.toNat
    if 1000 < offset ∨ pitch.toNat < 25 ∨ 255 < pitch.toNat ∨ t.fits = false then s.answer .range 0
    else (s.onLine l (Line.hold t)).answer .ok 0) := by
  dsimp only
  split
  · exact answer _ _ s
  · exact (hold l _ s).trans (answer _ _ _)

theorem configureLinePeriod (l : LineIx) (period : BitVec 17) (s : State) : Upholds s
    (let taken := clamp 40 250 period.toNat
    let t := (s.line l).held.withPeriod taken
    if t.fits then (s.onLine l (Line.hold t)).answer .ok (toWord taken) else s.answer .range 0) := by
  dsimp only
  split
  · exact (hold l _ s).trans (answer _ _ _)
  · exact answer _ _ s

/-- The passage over the commands. -/
theorem exec_completes (c : Instr) (s : State) : ∃ t, exec c s = .next t ∧ Upholds s t := by
  cases c with
  | powerOn cut | powerFailure cut => exact ⟨_, rfl, pinReset cut _ s⟩
  | resetnAsserted cut =>
    refine ⟨_, rfl, ?_⟩
    split
    · exact of_positions rfl
    · exact pinReset cut _ s
  | resetnDeasserted | supplyValid =>
    refine ⟨_, rfl, ?_⟩
    split
    · exact leaveReset _ s
    · exact refl s
  | pwrlowAsserted =>
    refine ⟨_, rfl, ?_⟩
    split
    · exact refl s
    · exact trans (t := s.onPins fun p => { p with pwrlow := true }) (of_positions rfl)
        (of_stands (Stands.forPositions _ Stands.checkpoint _))
  | pwrlowDeasserted => exact ⟨_, rfl, of_positions rfl⟩
  | transferIgnored | frameForOtherUnit =>
    refine ⟨_, rfl, unlessReset (fun s => ?_) s⟩
    exact of_positions rfl
  | badKind | readStatus =>
    refine ⟨_, rfl, takeFrame (fun s => ?_) s⟩
    exact of_positions rfl
  | readBuffer =>
    refine ⟨_, rfl, takeFrame (fun s => ?_) s⟩
    split <;> exact of_positions rfl
  | enableWrite | readAttention | clearAttention _ | setAttentionMode _ _ | readAttentionDetail | collectTakings =>
    refine ⟨_, rfl, takeFrame (whenRunning fun s => ?_) s⟩
    exact of_positions rfl
  | resetEnter =>
    exact ⟨_, rfl, takeFrame (whenRunning fun s => (beginDrain s).trans (answer _ _ _)) s⟩
  | enterInReset =>
    refine ⟨_, rfl, unlessReset (fun s => ?_) s⟩
    split
    · exact enterInReset s
    · exact refl s
  | resetLeave =>
    refine ⟨_, rfl, takeFrame (fun s => ?_) s⟩
    split
    · exact answer _ _ s
    · exact (startUp s).trans (answer _ _ _)
    · exact answer _ _ s
    · exact answer _ _ s
  | serialHigh _ | serialLow _ | stageValue _ | stageExpiry _ | stageTariffA _ _ _ | stageTariffB _
  | stageTariffC _ _ => exact ⟨_, rfl, takeFrame (stage _ _) s⟩
  | stageClass operand =>
    refine ⟨_, rfl, takeFrame (fun s => ?_) s⟩
    split
    · exact answer _ _ s
    · exact stage _ _ s
  | stageSlot operand =>
    refine ⟨_, rfl, takeFrame (fun s => ?_) s⟩
    split
    · exact answer _ _ s
    · exact stage _ _ s
  | issue =>
    refine ⟨_, rfl, takeFrame (latched fun s => ?_) s⟩
    dsimp only
    repeat' split
    all_goals exact of_positions rfl
  | credit =>
    refine ⟨_, rfl, takeFrame (latched fun s => ?_) s⟩
    split
    · exact of_positions rfl
    · exact of_stands (.onUnlockedCard (fun e => .fromStepSix _ e _) s)
  | setExpiry | block | unblock =>
    exact ⟨_, rfl, takeFrame (latched fun s => of_stands (.onUnlockedCard (fun e => .fromStepSix _ e _) s)) s⟩
  | retire =>
    refine ⟨_, rfl, takeFrame (latched fun s => ?_) s⟩
    refine of_stands (.onUnlockedCard (fun e s => ?_) s)
    repeat' split
    all_goals exact .of_positions rfl
  | eraseSlot =>
    refine ⟨_, rfl, takeFrame (latched fun s => ?_) s⟩
    dsimp only
    repeat' split
    all_goals exact of_positions rfl
  | queryCard =>
    refine ⟨_, rfl, takeFrame (whenRunning fun s => ?_) s⟩
    split
    · exact of_positions rfl
    · exact of_stands (.startQuery _ _ s)
  | querySlot =>
    refine ⟨_, rfl, takeFrame (whenRunning fun s => ?_) s⟩
    dsimp only
    split
    · exact of_positions rfl
    · exact of_stands (.startQuery _ _ s)
  | unlockRegion region | lockRegion region => exact ⟨_, rfl, takeFrame (latched (setLock region _)) s⟩
  | writeTariff | barZone _ _ | writeBand _ _ | clearBand _ | setTime _ =>
    refine ⟨_, rfl, takeFrame (fun s => ?_) s⟩
    dsimp only
    repeat' split
    all_goals exact of_positions rfl
  | setDay day =>
    refine ⟨_, rfl, takeFrame (fun s => ?_) s⟩
    exact of_positions rfl
  | configureLinePeriod n period =>
    exact ⟨_, rfl, takeFrame (onLineOperand n fun l => configureLinePeriod l period) s⟩
  | configureLineTiming n pitch => exact ⟨_, rfl, takeFrame (onLineOperand n fun l => configureLineTiming l pitch) s⟩
  | enableLine n =>
    exact ⟨_, rfl, takeFrame (whenRunning (onLineOperand n fun l s => (enableLine l s).trans (answer _ _ _))) s⟩
  | disableLine n =>
    exact ⟨_, rfl, takeFrame (whenRunning (onLineOperand n fun l s => (disableLine l s).trans (answer _ _ _))) s⟩
  | setSilentLimit op => exact ⟨_, rfl, takeFrame (onRange 2 15 op _) s⟩
  | setGrace op => exact ⟨_, rfl, takeFrame (onRange 0 30 op _) s⟩
  | setCheckpoint op => exact ⟨_, rfl, takeFrame (onRange 1 64 op _) s⟩
  | enablePosition position =>
    exact ⟨_, rfl, takeFrame (whenRunning (onPositionOperand position fun p s =>
      (enablePosition p s).trans (answer _ _ _))) s⟩
  | disablePosition position =>
    exact ⟨_, rfl, takeFrame (whenRunning (onPositionOperand position fun p s =>
      (disablePosition p s).trans (answer _ _ _))) s⟩
  | releasePosition position =>
    exact ⟨_, rfl, takeFrame (whenRunning (onPositionOperand position fun p s =>
      (of_stands (.enterOff p s)).trans (answer _ _ _))) s⟩
  | readPosition position =>
    refine ⟨_, rfl, takeFrame (whenRunning (onPositionOperand position fun p s => ?_)) s⟩
    exact of_positions rfl
  | attnPulseEnd => exact ⟨_, rfl, unlessReset (onAttention _) s⟩
  | cycleStart l => exact ⟨_, rfl, unlessReset (cycleStart l) s⟩
  | cycleOpenFrameEnd l => exact ⟨_, rfl, unlessReset (fun s => onLine_same l _ s (Line.frameEnd_state _)) s⟩
  | transmissionStart l time =>
    exact ⟨_, rfl, unlessReset (fun s => onLine_same l _ s (Line.transmissionStart_state _ _)) s⟩
  | transmissionEnd l time bits =>
    exact ⟨_, rfl, unlessReset (fun s => onLine_same l _ s (Line.transmissionEnd_state _ _ _)) s⟩
  | slotWindowClose l => exact ⟨_, rfl, unlessReset (windowClose l) s⟩
  | intervalExpiry position => exact ⟨_, rfl, unlessReset (fun s => of_stands (.intervalExpiry position s)) s⟩
  | graceTimerExpiry position => exact ⟨_, rfl, unlessReset (fun s => of_stands (.graceExpiry position s)) s⟩
  | clockStep => exact ⟨_, rfl, unlessReset (onTariff _) s⟩
  | lineFaultEvent l => exact ⟨_, rfl, unlessReset (lineFault l) s⟩
  | storeReadComplete change => exact ⟨_, rfl, unlessReset (fun s => of_stands (.readComplete change s)) s⟩
  | entryStart => exact ⟨_, rfl, unlessReset (fun s => of_stands (.entryStart s)) s⟩
  | valueWriteComplete left => exact ⟨_, rfl, unlessReset (fun s => of_stands (.valueWriteComplete left s)) s⟩
  | issueStepComplete left => exact ⟨_, rfl, unlessReset (fun s => of_stands (.issueStepComplete left s)) s⟩
  | eraseComplete left => exact ⟨_, rfl, unlessReset (fun s => of_stands (.eraseComplete left s)) s⟩
  | transferStart =>
    refine ⟨_, rfl, unlessReset (fun s => ?_) s⟩
    split
    · exact refl s
    · exact of_positions rfl

end Upholds

theorem exec_upholds {c : Instr} {s t : State} (h : exec c s = .next t) : Upholds s t := by
  obtain ⟨u, hu, kept⟩ := Upholds.exec_completes c s
  rw [hu] at h
  cases h
  exact kept

/-- Settles O57: the orders by the passage of `Keeps`, and the laws of the positions by that of `Upholds`. -/
theorem stepsKeepThePositions : Obligations.StepsKeepThePositions := by
  intro s t next
  have orders : (Keeps True s t ∧ Upholds s t) ∨
      ∃ rest, Keeps True { s with pending := rest } t ∧ Upholds { s with pending := rest } t :=
    step_induction (R := fun s t => Keeps True s t ∧ Upholds s t) (fun s => ⟨.tick s, .tick s⟩)
      (fun c u v h => ⟨{ exec_keeps h with takings := fun n => absurd trivial n }, exec_upholds h⟩) next
  obtain ⟨kept, upheld⟩ | ⟨rest, kept, upheld⟩ := orders
  · exact ⟨kept.orders, upheld.sound, upheld.served⟩
  · exact ⟨kept.orders, upheld.sound, upheld.served⟩

end Sys2Proof.Machine
end

section
/-!
PROOFS. Frames and events run on the state that they find: the laws of the queue (O1, O2) and of the port (O5, O6, O8).
-/

namespace Sys2Proof.Machine

/-! ### What a frame or an event that acts answers -/

section Acting
variable {s t : State} {act : State → State}

theorem done_takeFrame (h : s.listens) (e : act s.taken = t) : done (takeFrame act s) = .next t := by
  rw [takeFrame_of_listens h, e]

theorem done_running (h : s.serves) (e : act s.taken = t) : done (takeFrame (whenRunning act) s) = .next t :=
  done_takeFrame h.1 ((whenRunning_of_running (s := s.taken) h.2 act).trans e)

theorem done_armed (h : s.armed) (e : act s.taken = t) : done (takeFrame (latched act) s) = .next t :=
  done_takeFrame h.1.1 ((latched_of_armed (s := s.taken) h.1.2 h.2 act).trans e)

theorem done_event (h : s.pins.released = true) (e : act s = t) : done (unlessReset act s) = .next t := by
  rw [unlessReset_of_released h, e]

theorem done_not_running (h : s.listens) (away : s.port.mode ≠ .running) :
    done (takeFrame (whenRunning act) s) = .next (s.replied .notReady 0) :=
  done_takeFrame h (whenRunning_of_other (s := s.taken) away act)

theorem done_latched_not_running (h : s.listens) (away : s.port.mode ≠ .running) :
    done (takeFrame (latched act) s) = .next (s.repliedLatched .notReady 0) :=
  done_takeFrame h (by unfold latched; rw [if_pos (show s.taken.port.mode ≠ .running from away)]; rfl)

theorem done_latched_clear (h : s.serves) (clear : s.port.latch = false) :
    done (takeFrame (latched act) s) = .next (s.repliedLatched .noWriteEnable 0) :=
  done_takeFrame h.1 (by
    unfold latched
    rw [if_neg (show ¬ s.taken.port.mode ≠ .running from fun n => n h.2),
      if_neg (show ¬ s.taken.port.latch = true by rw [State.taken_latch, clear]; nofun)]
    rfl)

end Acting

/-! ### An action on several positions -/

theorem forPositions_ctx {f : Pos → State → State} {P : Position → Position → Prop}
    (here : ∀ p s, P (s.ctx p) ((f p s).ctx p)) (others : ∀ p q s, p ≠ q → (f p s).ctx q = s.ctx q) {ps : List Pos}
    (once : ps.Nodup) {p : Pos} (mem : p ∈ ps) (s : State) : P (s.ctx p) ((forPositions ps f s).ctx p) := by
  induction ps generalizing s with
  | nil => nomatch mem
  | cons q ps ih =>
    obtain ⟨away, once⟩ := List.nodup_cons.1 once
    obtain rfl | rest := List.mem_cons.1 mem
    · show P (s.ctx p) ((forPositions ps f (f p s)).ctx p)
      rw [Upholds.forPositions_other others away]
      exact here p s
    · have kept : (f q s).ctx p = s.ctx p := others q p s fun e => away (e ▸ rest)
      exact kept ▸ ih once rest (f q s)

theorem mem_allPositions : ∀ p : Pos, p ∈ allPositions := by decide

theorem nodup_allPositions : allPositions.Nodup := by decide

theorem State.onCtx_eq (p : Pos) (f : Position → Position) (s : State) :
    s.onCtx p f = s.withCtx p (f (s.ctx p)).settled := rfl

/-- Contexts changed one after another leave all else as it was. -/
theorem forPositions_onCtx (ps : List Pos) (f : Pos → Position → Position) (s : State) :
    forPositions ps (fun p => State.onCtx p (f p)) s =
      { s with positions := (forPositions ps (fun p => State.onCtx p (f p)) s).positions } := by
  induction ps generalizing s with
  | nil => rfl
  | cons p ps ih => exact ih _

/-! ### The command queue (O1, O2) -/

/-- Settles O1. -/
theorem stepTakesTheFront : Obligations.StepTakesTheFront := by
  intro c rest s h
  unfold step
  rw [h]

/-- The timers of a call are no part of the order that its position shows. -/
theorem Position.settled_tick {c : Position} (h : c.order = c.currentOrder) :
    Position.settled { c with call := c.call.map Call.tick } = { c with call := c.call.map Call.tick } := by
  have same : ({ c with call := c.call.map Call.tick } : Position).currentOrder = c.currentOrder := by
    unfold Position.currentOrder
    cases c.state <;> cases c.call <;> rfl
  rw [Position.settled, same, h]

/-- Settles O2: every context is ticked once, and its order stays current. -/
theorem stepOnEmptyQueue : Obligations.StepOnEmptyQueue := by
  intro s empty
  have ticks : step s = .next s.tick := by unfold step; rw [empty]
  refine ⟨fun reset => ?_, fun released orders => ?_⟩
  · rw [ticks, State.tick, unlessReset_of_reset reset]
  · rw [ticks, State.tick, unlessReset_of_released released, forPositions_onCtx]
    refine congrArg (fun v : Vector Position 48 => Host.Outcome.next (φ := Fault) (ρ := Refusal)
      { s with tariff := { s.tariff with part := min 9 (s.tariff.part + 1) }, positions := v }) (Vector.ext fun i hi => ?_)
    rw [Vector.getElem_map]
    exact forPositions_ctx (P := fun c d => c.order = c.currentOrder → d = { c with call := c.call.map Call.tick })
      (fun p s h => by rw [State.ctx_onCtx_same]; exact Position.settled_tick h)
      (fun p q s h => State.ctx_onCtx_other h _ s) nodup_allPositions (mem_allPositions ⟨i, hi⟩) _ (orders ⟨i, hi⟩)

/-! ### Frames that are passed over or refused (O5) -/

theorem frame_passed {c : Instr} {s : State} (frame : frameTaken c = true) (released : s.pins.released = true)
    (waiting : s.port.result ≠ .none) (held : s.port.delivers = false) : exec c s = .next s.passed := by
  have passes (act : State → State) : done (takeFrame act s) = .next s.passed := by
    rw [takeFrame_of_waiting released waiting held]
  cases c <;> first | exact passes _ | nomatch frame

theorem event_in_reset {c : Instr} {s : State} (own : fromPins c = false) (reset : s.pins.released = false) :
    exec c s = .next s := by
  have frame (act : State → State) : done (takeFrame act s) = .next s := by rw [takeFrame_of_reset reset]
  have event (act : State → State) : done (unlessReset act s) = .next s := by rw [unlessReset_of_reset reset]
  cases c <;> first | exact frame _ | exact event _ | nomatch own

theorem frame_not_running {c : Instr} {s : State} (frame : frameTaken c = true) (served : servedInEveryMode c = false)
    (h : s.listens) (away : s.port.mode ≠ .running) :
    exec c s = .next (if needsLatch c then s.repliedLatched .notReady 0 else s.replied .notReady 0) := by
  split
  · next latch => cases c <;> first | exact done_latched_not_running h away | nomatch latch
  · next free =>
    cases c <;> first
      | exact done_not_running h away
      | exact absurd served.symm Bool.false_ne_true
      | exact absurd frame Bool.false_ne_true
      | exact absurd rfl free

theorem frame_latch_clear {c : Instr} {s : State} (latch : needsLatch c = true) (h : s.serves)
    (clear : s.port.latch = false) : exec c s = .next (s.repliedLatched .noWriteEnable 0) := by
  cases c <;> first | exact done_latched_clear h clear | nomatch latch

/-- Settles O5. -/
theorem framesNotTakenOrRefused : Obligations.FramesNotTakenOrRefused :=
  ⟨⟨fun _ _ => frame_passed, fun _ _ => event_in_reset⟩, fun _ _ => frame_not_running, fun _ _ => frame_latch_clear⟩

/-! ### Transfers and status (O6) -/

theorem transferStart_next {s : State} (h : s.pins.released = true) :
    exec .transferStart s = .next (if s.port.transfer.isSome then s else s.transferStart) := done_event h rfl

theorem sdo_of_released {s : State} (h : s.pins.released = true) (n : Nat) :
    s.sdo n = (s.port.transfer.bind Transfer.shifted).map fun w => if n < 32 then w.getLsbD (31 - n) else true := by
  unfold State.sdo State.inReset
  rw [h]
  rfl

theorem flag_bits : ∀ ad tk tf pl lf sf hc : Bool,
    let x := BitVec.ofBool ad ++ BitVec.ofBool tk ++ BitVec.ofBool tf ++ BitVec.ofBool pl ++ BitVec.ofBool lf ++
      BitVec.ofBool sf ++ BitVec.ofBool hc
    x.getLsbD 0 = hc ∧ x.getLsbD 1 = sf ∧ x.getLsbD 2 = lf ∧ x.getLsbD 3 = pl ∧ x.getLsbD 4 = tf ∧ x.getLsbD 5 = tk ∧
      x.getLsbD 6 = ad := by decide

theorem Attention.flags_bit (a : Attention) (f : Flag) : a.flags.getLsbD f.bit = a.isSet f := by
  obtain ⟨hot, store, line, lost, tariff, takings, admission⟩ := flag_bits (a.isSet .admission) (a.isSet .takingsFull)
    (a.isSet .tariffFault) (a.isSet .positionLost) (a.isSet .lineFault) (a.isSet .storeFault) (a.isSet .hotCard)
  cases f
  · exact hot
  · exact store
  · exact line
  · exact lost
  · exact tariff
  · exact takings
  · exact admission

/-- Some flag is enabled and set just where the masked flag word is not 0. -/
theorem Attention.anyEnabled_iff (a : Attention) :
    a.anyEnabled = true ↔ ∃ f : Flag, a.isSet f = true ∧ a.mask.getLsbD f.bit = true := by
  have bit : ∀ i, i < 7 → ∃ f : Flag, f.bit = i := by
    intro i hi
    match i, hi with
    | 0, _ => exact ⟨.hotCard, rfl⟩
    | 1, _ => exact ⟨.storeFault, rfl⟩
    | 2, _ => exact ⟨.lineFault, rfl⟩
    | 3, _ => exact ⟨.positionLost, rfl⟩
    | 4, _ => exact ⟨.tariffFault, rfl⟩
    | 5, _ => exact ⟨.takingsFull, rfl⟩
    | 6, _ => exact ⟨.admission, rfl⟩
  unfold Attention.anyEnabled
  rw [decide_eq_true_iff]
  constructor
  · intro some
    by_contra none
    refine some (BitVec.eq_of_getLsbD_eq fun i hi => ?_)
    obtain ⟨f, rfl⟩ := bit i hi
    rw [BitVec.getLsbD_and, Attention.flags_bit]
    refine Eq.trans ?_ BitVec.getLsbD_zero.symm
    exact Bool.eq_false_iff.2 fun both => none ⟨f, Bool.and_eq_true_iff.1 both⟩
  · rintro ⟨f, set, enabled⟩ none
    have := congrArg (BitVec.getLsbD · f.bit) none
    simp [BitVec.getLsbD_and, Attention.flags_bit, set, enabled] at this

/-- The reply word by its bits: six status bits, and the rest below them. -/
theorem State.replyWord_status (s : State) (i : Nat) : s.replyWord.getLsbD (26 + i) = s.status.getLsbD i := by
  unfold State.replyWord State.replyBody
  rw [BitVec.getLsbD_append, if_neg (by omega), BitVec.getLsbD_append, if_neg (by omega), BitVec.getLsbD_append,
    if_neg (by omega)]
  congr 1
  omega

theorem status_bits : ∀ rs rdy atn fe pl we : Bool,
    let x := BitVec.ofBool rs ++ BitVec.ofBool rdy ++ BitVec.ofBool atn ++ BitVec.ofBool fe ++ BitVec.ofBool pl ++
      BitVec.ofBool we
    x.getLsbD 5 = rs ∧ x.getLsbD 4 = rdy ∧ x.getLsbD 3 = atn ∧ x.getLsbD 2 = fe ∧ x.getLsbD 1 = pl ∧
      x.getLsbD 0 = we := by decide

theorem State.status_bits (s : State) : s.status.getLsbD 5 = s.port.rs ∧ s.status.getLsbD 4 = s.dir.ready ∧
    s.status.getLsbD 3 = s.attention.anyEnabled ∧ s.status.getLsbD 2 = s.port.fe ∧ s.status.getLsbD 1 = s.pins.pwrlow ∧
    s.status.getLsbD 0 = s.port.latch :=
  Machine.status_bits _ _ _ _ _ _

theorem extract_above {w v start len : Nat} (x : BitVec w) (y : BitVec v) (h : v ≤ start) :
    (x ++ y).extractLsb' start len = x.extractLsb' (start - v) len := BitVec.extractLsb'_append_eq_of_le h

theorem extract_low {w v : Nat} (x : BitVec w) (y : BitVec v) : (x ++ y).extractLsb' 0 v = y := by
  rw [BitVec.extractLsb'_append_eq_of_add_le (by omega), BitVec.extractLsb'_eq_self]

theorem State.replyWord_body (s : State) : s.replyWord.extractLsb' 4 28 = s.replyBody := by
  unfold State.replyWord
  rw [BitVec.extractLsb'_append_eq_of_le (by decide)]
  exact BitVec.extractLsb'_eq_self

theorem State.replyWord_fields (s : State) : s.replyWord.extractLsb' 20 6 = s.port.reply.code.code ∧
    s.replyWord.extractLsb' 4 16 = s.port.reply.data ∧
    s.replyWord.extractLsb' 0 4 = replyCheck s.port.reply.code s.replyBody := by
  refine ⟨?_, ?_, ?_⟩
  · exact (extract_above (v := 4) _ _ (by decide)).trans ((extract_above (v := 16) _ _ (by decide)).trans (extract_low _ _))
  · exact (extract_above (v := 4) _ _ (by decide)).trans (extract_low _ _)
  · exact extract_low _ _

/-- Settles O6. -/
theorem transfersRepliesAndStatus : Obligations.TransfersRepliesAndStatus := by
  refine ⟨⟨fun s released => ⟨transferStart_next released, done_event released rfl, done_event released rfl,
    fun none n => ?_, fun t transfer => ⟨fun undriven n => ?_, fun w word => ⟨fun n inside => ?_, fun n past => ?_⟩⟩⟩,
    fun s => ?_⟩, fun s h => ⟨done_takeFrame h rfl, done_takeFrame h rfl, fun running => done_running ⟨h, running⟩ rfl⟩⟩
  · rw [sdo_of_released released, none]; rfl
  · rw [sdo_of_released released, transfer, Option.bind_some, undriven]; rfl
  · rw [sdo_of_released released, transfer, Option.bind_some, word, Option.map_some, if_pos inside]
  · rw [sdo_of_released released, transfer, Option.bind_some, word, Option.map_some, if_neg (by omega)]
  · obtain ⟨rs, ready, atn, fe, pl, we⟩ := s.status_bits
    obtain ⟨code, data, check⟩ := s.replyWord_fields
    refine ⟨(s.replyWord_status 5).trans rs, (s.replyWord_status 4).trans ready, ?_, (s.replyWord_status 2).trans fe,
      (s.replyWord_status 1).trans pl, (s.replyWord_status 0).trans we, code, data, ?_⟩
    · rw [s.replyWord_status 3, atn, Attention.anyEnabled_iff]
    · rw [check, s.replyWord_body]
      unfold replyCheck
      split
      · rfl
      · exact (BitVec.xor_zero).symm

/-! ### Staging (O8) -/

theorem classOperand_code (c : CardClass) : classOperand (c.code.setWidth 20) = some c := by cases c <;> rfl

theorem classOperand_none {op : BitVec 20} (h : 3 ≤ op.toNat) : classOperand op = none := by
  unfold classOperand
  split <;> first | omega | rfl

/-- Settles O8. -/
theorem parameterFramesStage : Obligations.ParameterFramesStage := by
  intro s h
  refine ⟨fun v => done_takeFrame h rfl, fun v => done_takeFrame h rfl, fun v => done_takeFrame h rfl,
    fun v => done_takeFrame h rfl, fun v => done_takeFrame h rfl, fun z b c => done_takeFrame h rfl,
    fun r q => done_takeFrame h rfl, fun c => done_takeFrame h ?_, fun op high => done_takeFrame h ?_,
    fun op low => done_takeFrame h ?_, fun op high => done_takeFrame h ?_⟩
  · rw [classOperand_code]
    cases c <;> rfl
  · rw [classOperand_none high]
    rfl
  · rw [slotOperand, dif_pos low]
    rfl
  · rw [slotOperand, dif_neg (by omega)]
    rfl

end Sys2Proof.Machine
end

section
/-!
PROOFS. One wrong bit: what it does to a cyclic check (O4) and to the parity of a tariff entry; the tariff table (O9).
-/

namespace Sys2Proof

/-! ### One bit of a field -/

/-- A field and the same field with one bit wrong travel as the same bits but one. -/
theorem msbFirst_flip {n i : Nat} (x : BitVec n) (h : i < n) : ∃ before after, msbFirst x = before ++ x.getLsbD i :: after ∧
    msbFirst (x ^^^ 1#n <<< i) = before ++ (!x.getLsbD i) :: after := by
  have bit : ∀ j, (x ^^^ 1#n <<< i).getLsbD j = if j = i then !x.getLsbD j else x.getLsbD j := by
    intro j
    rw [BitVec.getLsbD_xor, BitVec.getLsbD_shiftLeft, BitVec.getLsbD_one]
    rcases lt_trichotomy j i with lt | rfl | gt
    · simp [lt, lt.ne]
    · simp [h, show 0 < n by omega]
    · simp [gt.ne', show j - i ≠ 0 by omega]
  obtain ⟨before, after, split⟩ := List.append_of_mem (List.mem_reverse.2 (List.mem_range.2 h))
  have once : (List.range n).reverse.Nodup := List.nodup_reverse.2 List.nodup_range
  rw [split] at once
  obtain ⟨-, tail, apart⟩ := List.nodup_append.1 once
  have same : ∀ l : List Nat, i ∉ l → l.map (x ^^^ 1#n <<< i).getLsbD = l.map x.getLsbD := fun l away =>
    List.map_congr_left fun j mem => (bit j).trans (if_neg fun e : j = i => away (e ▸ mem))
  refine ⟨before.map x.getLsbD, after.map x.getLsbD, ?_, ?_⟩
  · rw [msbFirst, split, List.map_append, List.map_cons]
  · rw [msbFirst, split, List.map_append, List.map_cons, bit, if_pos rfl,
      same before fun mem => apart i mem i List.mem_cons_self rfl, same after (List.nodup_cons.1 tail).1]

/-! ### The cyclic check of a frame (O4) -/

/-- No two registers lead to one register by the same bit, and no register to one by both bits. -/
theorem crcBit_injective : ∀ (r q : BitVec 4) (b : Bool), crcBit 0b0011#4 r b = crcBit 0b0011#4 q b → r = q := by decide

theorem crcBit_flip : ∀ (r : BitVec 4) (b : Bool), crcBit 0b0011#4 r b ≠ crcBit 0b0011#4 r (!b) := by decide

theorem crc_injective (bits : List Bool) {r q : BitVec 4} (h : crc 0b0011#4 r bits = crc 0b0011#4 q bits) : r = q := by
  induction bits generalizing r q with
  | nil => exact h
  | cons b bits ih => exact crcBit_injective r q b (ih h)

/-- One wrong bit among those covered changes the check. -/
theorem crc4_flip {n i : Nat} (x : BitVec n) (h : i < n) : crc4 (msbFirst (x ^^^ 1#n <<< i)) ≠ crc4 (msbFirst x) := by
  obtain ⟨before, after, as, flipped⟩ := msbFirst_flip x h
  rw [as, flipped]
  unfold crc4 crc
  rw [List.foldl_append, List.foldl_append]
  exact fun e => crcBit_flip _ _ (crc_injective after e).symm

open Machine in
theorem frameOf_fields (address : BitVec 2) (kind : BitVec 6) (op : BitVec 20) :
    (frameOf address kind op).extractLsb' 30 2 = address ∧ (frameOf address kind op).extractLsb' 24 6 = kind ∧
    (frameOf address kind op).extractLsb' 4 20 = op ∧
    (frameOf address kind op).extractLsb' 4 28 = frameBody address kind op ∧
    (frameOf address kind op).extractLsb' 0 4 = crc4 (msbFirst (frameBody address kind op)) :=
  ⟨(extract_above (v := 4) _ _ (by decide)).trans ((extract_above (v := 20) _ _ (by decide)).trans
      ((extract_above (v := 6) _ _ (by decide)).trans BitVec.extractLsb'_eq_self)),
    (extract_above (v := 4) _ _ (by decide)).trans ((extract_above (v := 20) _ _ (by decide)).trans (extract_low _ _)),
    (extract_above (v := 4) _ _ (by decide)).trans (extract_low _ _),
    (extract_above (v := 4) _ _ (by decide)).trans BitVec.extractLsb'_eq_self, extract_low _ _⟩

/-- A frame with its check spells what its fields do. -/
theorem decodeFrame_frameOf (straps address : BitVec 2) (kind : BitVec 6) (op : BitVec 20) :
    decodeFrame straps (frameOf address kind op) = ofFields straps address kind op := by
  obtain ⟨addressed, kinded, operand, body, check⟩ := frameOf_fields address kind op
  rw [decodeFrame, body, check, if_pos rfl, addressed, kinded, operand]

theorem extract_high {w v : Nat} (x : BitVec w) (y : BitVec v) : (x ++ y).extractLsb' v w = x := by
  rw [Machine.extract_above _ _ le_rfl, Nat.sub_self, BitVec.extractLsb'_eq_self]

theorem getLsbD_above {w v i : Nat} (x : BitVec w) (y : BitVec v) (h : v ≤ i) : (x ++ y).getLsbD i = x.getLsbD (i - v) := by
  rw [BitVec.getLsbD_append, if_neg (by omega)]

theorem getLsbD_ofBool (x : BitVec 12) (b : Bool) : (x ++ BitVec.ofBool b).getLsbD 0 = b := by
  rw [BitVec.getLsbD_append, if_pos (by decide)]
  cases b <;> rfl

open Machine in
/-- The kind and operand of a command spell it. -/
theorem ofKind_kindAndOperand {i : Instr} {kind : BitVec 6} {op : BitVec 20}
    (h : i.kindAndOperand = some (kind, op)) : ofKind kind op = some i := by
  cases i <;> cases h
  case serialHigh v => exact congrArg (fun v => some (Instr.serialHigh v)) (extract_low _ v)
  case serialLow v => exact congrArg (fun v => some (Instr.serialLow v)) (extract_low _ v)
  case stageValue v => exact congrArg (fun v => some (Instr.stageValue v)) (extract_low _ v)
  case stageExpiry v => exact congrArg (fun v => some (Instr.stageExpiry v)) (extract_low _ v)
  case stageTariffB v => exact congrArg (fun v => some (Instr.stageTariffB v)) (extract_low _ v)
  case setDay v => exact congrArg (fun v => some (Instr.setDay v)) (extract_low _ v)
  case setTime v => exact congrArg (fun v => some (Instr.setTime v)) (extract_low _ v)
  case clearBand v => exact congrArg (fun v => some (Instr.clearBand v)) (extract_low _ v)
  case clearAttention v => exact congrArg (fun v => some (Instr.clearAttention v)) (extract_low _ v)
  case enableLine v => exact congrArg (fun v => some (Instr.enableLine v)) (extract_high v _)
  case disableLine v => exact congrArg (fun v => some (Instr.disableLine v)) (extract_high v _)
  case stageTariffC x y =>
    exact congrArg₂ (fun x y => some (Instr.stageTariffC x y)) (extract_high x y) (extract_low x y)
  case configureLinePeriod x y =>
    exact congrArg₂ (fun x y => some (Instr.configureLinePeriod x y)) (extract_high x y) (extract_low x y)
  case barZone z b =>
    exact congrArg₂ (fun x y => some (Instr.barZone x y))
      ((extract_above (v := 2) _ b (by decide)).trans (extract_low _ z)) (extract_low _ b)
  case writeBand m b =>
    exact congrArg₂ (fun x y => some (Instr.writeBand x y))
      ((extract_above (v := 2) _ b (by decide)).trans (extract_low _ m)) (extract_low _ b)
  case configureLineTiming l w =>
    exact congrArg₂ (fun x y => some (Instr.configureLineTiming x y))
      ((extract_above (v := 9) _ w (by decide)).trans (extract_high l _)) (extract_low _ w)
  case setAttentionMode b m =>
    exact congrArg₂ (fun x y => some (Instr.setAttentionMode x y))
      ((getLsbD_above (v := 7) _ m (by decide)).trans (getLsbD_ofBool _ b)) (extract_low _ m)
  case stageTariffA z b c =>
    have zone : (z ++ b ++ c).extractLsb' 16 4 = z :=
      (extract_above (v := 14) _ c (by decide)).trans (extract_high z b)
    have band : (z ++ b ++ c).extractLsb' 14 2 = b :=
      (extract_above (v := 14) _ c (by decide)).trans (extract_low z b)
    exact (congrArg₂ (fun x y => some (Instr.stageTariffA x y _)) zone band).trans
      (congrArg (fun y => some (Instr.stageTariffA z b y)) (extract_low _ c))
  all_goals rfl

theorem extract_xor {w start len : Nat} (x y : BitVec w) :
    (x ^^^ y).extractLsb' start len = x.extractLsb' start len ^^^ y.extractLsb' start len := BitVec.extractLsb'_xor

/-- The one wrong bit of a word, as its check and the bits before it have it. -/
theorem flip_low : ∀ n, n < 4 → (1#32 <<< n).extractLsb' 4 28 = 0#28 ∧ (1#32 <<< n).extractLsb' 0 4 ≠ 0#4 := by decide

theorem flip_high : ∀ n, n < 28 → (1#32 <<< (4 + n)).extractLsb' 4 28 = 1#28 <<< n ∧
    (1#32 <<< (4 + n)).extractLsb' 0 4 = 0#4 := by decide

/-- A frame with one bit wrong fails its check. -/
theorem frame_flip_fails (address : BitVec 2) (kind : BitVec 6) (op : BitVec 20) {n : Nat} (h : n < 32) :
    crc4 (msbFirst ((frameOf address kind op ^^^ 1#32 <<< n).extractLsb' 4 28)) ≠
      (frameOf address kind op ^^^ 1#32 <<< n).extractLsb' 0 4 := by
  obtain ⟨-, -, -, body, check⟩ := frameOf_fields address kind op
  rw [extract_xor, extract_xor, body, check]
  by_cases low : n < 4
  · obtain ⟨same, wrong⟩ := flip_low n low
    rw [same, BitVec.xor_zero]
    exact fun e => wrong ((BitVec.xor_right_inj _).1 ((e.symm.trans (BitVec.xor_zero).symm)))
  · obtain ⟨m, rfl⟩ := Nat.exists_eq_add_of_le (not_lt.1 low)
    obtain ⟨wrong, same⟩ := flip_high m (by omega)
    rw [wrong, same, BitVec.xor_zero]
    exact crc4_flip _ (by omega)

end Sys2Proof

namespace Sys2Proof.Machine

/-- Settles O4. -/
theorem framesDecodeToTheirCommands : Obligations.FramesDecodeToTheirCommands := by
  refine ⟨fun address straps i f encoded => ?_, fun address straps kind op n inside => ?_⟩
  · obtain ⟨⟨kind, op⟩, fields, rfl⟩ := Option.map_eq_some_iff.1 encoded
    rw [decodeFrame_frameOf, ofFields, ofKind_kindAndOperand fields, Option.getD_some]
  · rw [decodeFrame, if_neg (frame_flip_fails address kind op inside)]

/-! ### The check of a tariff entry (O9) -/

theorem foldl_bne_not (l : List Bool) (a : Bool) : l.foldl (· != ·) (!a) = !l.foldl (· != ·) a := by
  induction l generalizing a with
  | nil => rfl
  | cons b l ih => rw [List.foldl_cons, List.foldl_cons, ← ih]; cases a <;> cases b <;> rfl

/-- One upset cell turns the parity of a field. -/
theorem oddOnes_flip {n i : Nat} (x : BitVec n) (h : i < n) : oddOnes (x ^^^ 1#n <<< i) = !oddOnes x := by
  obtain ⟨before, after, as, flipped⟩ := msbFirst_flip x h
  unfold oddOnes
  rw [as, flipped, List.foldl_append, List.foldl_append, List.foldl_cons, List.foldl_cons, ← foldl_bne_not]
  generalize before.foldl (· != ·) false = a
  cases a <;> cases x.getLsbD i <;> rfl

theorem TariffEntry.withCheck_verifies (e : TariffEntry) : e.withCheck.verifies = true := by
  show (e.fieldsOdd != !e.fieldsOdd) = true
  cases e.fieldsOdd <;> rfl

/-- An entry whose fields have the other parity fails the check as written. -/
theorem TariffEntry.verifies_of_turned {e f : TariffEntry} (check : f.check = e.withCheck.check)
    (turned : f.fieldsOdd = !e.fieldsOdd) : f.verifies = false := by
  unfold TariffEntry.verifies
  rw [check, turned]
  show ((!e.fieldsOdd) != !e.fieldsOdd) = false
  cases e.fieldsOdd <;> rfl

theorem TariffEntry.upset_fails (e : TariffEntry) :
    { e.withCheck with valid := !e.valid }.verifies = false ∧
    { e.withCheck with check := !e.withCheck.check }.verifies = false ∧
    (∀ i, i < 8 → { e.withCheck with initialCharge := e.initialCharge ^^^ 1#8 <<< i }.verifies = false) ∧
    (∀ i, i < 13 → { e.withCheck with interval := e.interval ^^^ 1#13 <<< i }.verifies = false) ∧
    (∀ i, i < 10 → { e.withCheck with standardRate := e.standardRate ^^^ 1#10 <<< i }.verifies = false) ∧
    ∀ i, i < 10 → { e.withCheck with concessionRate := e.concessionRate ^^^ 1#10 <<< i }.verifies = false := by
  refine ⟨verifies_of_turned rfl ?_, ?_, fun i h => verifies_of_turned rfl ?_, fun i h => verifies_of_turned rfl ?_,
    fun i h => verifies_of_turned rfl ?_, fun i h => verifies_of_turned rfl ?_⟩
  · simp only [fieldsOdd, withCheck, Bool.not_bne]
  · show (e.fieldsOdd != !!e.fieldsOdd) = false
    cases e.fieldsOdd <;> rfl
  all_goals simp only [fieldsOdd, withCheck, oddOnes_flip _ h, Bool.not_bne, Bool.bne_not]

/-! ### The tariff table and its frames -/

/-- Each zone from 1 and band has a place of its own. -/
theorem entryIndex_inj {z y : BitVec 4} {b c : BitVec 2} (hz : z ≠ 0) (hy : y ≠ 0) :
    entryIndex z b = entryIndex y c ↔ y = z ∧ c = b := by
  constructor
  · intro h
    have places : (z.toNat - 1) * 4 + b.toNat = (y.toNat - 1) * 4 + c.toNat := congrArg Fin.val h
    have zone : z.toNat ≠ 0 := fun n => hz (BitVec.eq_of_toNat_eq n)
    have zone' : y.toNat ≠ 0 := fun n => hy (BitVec.eq_of_toNat_eq n)
    have := b.isLt
    have := c.isLt
    exact ⟨BitVec.eq_of_toNat_eq (by omega), BitVec.eq_of_toNat_eq (by omega)⟩
  · rintro ⟨rfl, rfl⟩
    rfl

theorem Tariff.entry_putEntry (t : Tariff) (e : TariffEntry) {z y : BitVec 4} (b c : BitVec 2) (hz : z ≠ 0)
    (hy : y ≠ 0) : (t.putEntry z b e).entry y c = if y = z ∧ c = b then e else t.entry y c := by
  unfold Tariff.putEntry Tariff.entry
  simp only [Fin.getElem_fin, Vector.getElem_set, Fin.val_inj, entryIndex_inj hz hy]

theorem clamp_spec (lo hi n : Nat) : (n < lo → clamp lo hi n = lo) ∧ (lo ≤ hi → hi < n → clamp lo hi n = hi) ∧
    (lo ≤ n → n ≤ hi → clamp lo hi n = n) := by
  unfold clamp
  refine ⟨fun h => if_pos h, fun _ h => ?_, fun h k => ?_⟩
  · rw [if_neg (by omega), if_pos h]
  · rw [if_neg (by omega), if_neg (by omega)]

theorem clamp_le {lo hi : Nat} (h : lo ≤ hi) (n : Nat) : clamp lo hi n ≤ hi := by
  unfold clamp
  split
  · exact h
  · split <;> omega

/-- The entry that WRITE TARIFF puts in (R114). -/
def Staging.tariffEntry (g : Staging) : TariffEntry :=
  { valid := true, initialCharge := g.initialCharge.setWidth 8, interval := BitVec.ofNat 13 (clamp 5 6000 g.interval.toNat),
    standardRate := g.standardRate, concessionRate := g.concessionRate, check := false }

theorem writeTariff_next {s : State} (h : s.listens) : exec .writeTariff s = .next
    (if s.port.staging.zone = 0 then s.replied .range 0
    else if 255 < s.port.staging.initialCharge.toNat then s.replied .range 0
    else { s with
      tariff := s.tariff.putEntry s.port.staging.zone s.port.staging.band s.port.staging.tariffEntry.withCheck
      port := s.port.answered .ok (toWord (clamp 5 6000 s.port.staging.interval.toNat)) }) :=
  done_takeFrame h rfl

theorem barZone_next {s : State} (h : s.listens) (zone : BitVec 4) (band : BitVec 2) : exec (.barZone zone band) s = .next
    (if zone = 0 then s.replied .range 0
    else { s with
      tariff := s.tariff.putEntry zone band { s.tariff.entry zone band with valid := false }.withCheck
      port := s.port.answered .ok 0 }) :=
  done_takeFrame h rfl

/-- Settles O9. -/
theorem tariffEntriesAndFrames : Obligations.TariffEntriesAndFrames := by
  refine ⟨⟨fun t e z y b c hz hy => t.entry_putEntry e b c hz hy, fun e => ⟨e.withCheck_verifies, e.upset_fails⟩⟩,
    fun s h => ⟨?_, fun zone charge => ⟨s.port.staging.tariffEntry.withCheck,
      clamp 5 6000 s.port.staging.interval.toNat, ?_, (clamp_spec ..).1, (clamp_spec ..).2.1 (by decide),
      (clamp_spec ..).2.2, rfl, ?_, ?_, rfl, rfl, TariffEntry.withCheck_verifies _⟩,
      fun band => ?_, fun zone band some => ⟨(TariffEntry.withCheck { s.tariff.entry zone band with valid := false }).check, ?_,
        TariffEntry.withCheck_verifies { s.tariff.entry zone band with valid := false }⟩⟩⟩
  · intro refused
    rw [writeTariff_next h]
    split
    · rfl
    · next some => rw [if_pos (refused.resolve_left some)]
  · rw [writeTariff_next h, if_neg zone, if_neg (by omega)]
    rfl
  · show (s.port.staging.initialCharge.setWidth 8).toNat = _
    rw [BitVec.toNat_setWidth, Nat.mod_eq_of_lt (by omega)]
  · show (BitVec.ofNat 13 (clamp 5 6000 s.port.staging.interval.toNat)).toNat = _
    rw [BitVec.toNat_ofNat, Nat.mod_eq_of_lt (lt_of_le_of_lt (clamp_le (by decide) _) (by decide))]
  · rw [barZone_next h, if_pos rfl]
  · rw [barZone_next h, if_neg some]
    rfl

end Sys2Proof.Machine
end

section
/-!
PROOFS. The band schedule, the clock, the takings and the settings by their commands (O10, O12, O13, O14).
-/

namespace Sys2Proof.Machine

/-! ### WRITE BAND and CLEAR BAND (O10) -/

theorem mem_putBand {minute : Nat} {band : BitVec 2} {l : List (Nat × BitVec 2)} (h : l.Pairwise fun a b => a.1 < b.1)
    (e : Nat × BitVec 2) : e ∈ putBand minute band l ↔ e = (minute, band) ∨ (e.1 ≠ minute ∧ e ∈ l) := by
  induction l with
  | nil => simp [putBand]
  | cons x rest ih =>
    obtain ⟨hx, hr⟩ := List.pairwise_cons.1 h
    unfold putBand
    split
    · next before =>
      have away : ∀ d ∈ x :: rest, d.1 ≠ minute := by
        intro d mem
        obtain rfl | mem := List.mem_cons.1 mem
        · exact before.ne'
        · exact (before.trans (hx d mem)).ne'
      rw [List.mem_cons]
      exact or_congr_right ⟨fun mem => ⟨away e mem, mem⟩, And.right⟩
    · split
      · next same =>
        have away : ∀ d ∈ rest, d.1 ≠ minute := fun d mem => same ▸ (hx d mem).ne'
        rw [List.mem_cons, List.mem_cons]
        refine or_congr_right ⟨fun mem => ⟨away e mem, .inr mem⟩, ?_⟩
        rintro ⟨other, rfl | mem⟩
        · exact absurd same.symm other
        · exact mem
      · next differs =>
        have here : x.1 ≠ minute := fun n => differs n.symm
        rw [List.mem_cons, ih hr, List.mem_cons]
        constructor
        · rintro (rfl | rfl | ⟨other, mem⟩)
          · exact .inr ⟨here, .inl rfl⟩
          · exact .inl rfl
          · exact .inr ⟨other, .inr mem⟩
        · rintro (rfl | ⟨other, rfl | mem⟩)
          · exact .inr (.inl rfl)
          · exact .inl rfl
          · exact .inr (.inr ⟨other, mem⟩)

theorem hasMinute_iff (minute : Nat) (l : List (Nat × BitVec 2)) :
    hasMinute minute l = true ↔ ∃ e ∈ l, e.1 = minute := by
  simp only [hasMinute, List.any_eq_true, beq_iff_eq]

theorem bandWord_bits : ∀ n, n < 16 → ∀ b : BitVec 2,
    0#8 ++ BitVec.ofNat 4 n ++ 0#2 ++ b = BitVec.ofNat 16 (16 * n + b.toNat) := by decide

theorem Tariff.bandWord_eq {t : Tariff} (h : t.schedule.length ≤ Config.schedulePlaces) :
    t.bandWord = BitVec.ofNat 16 (16 * t.schedule.length + t.band.toNat) := bandWord_bits _ (lt_of_le_of_lt h (by decide)) _

/-- The part after a change of its schedule (R118, R119, R121). -/
def State.rescheduled (after : List (Nat × BitVec 2)) (s : State) : State :=
  { s with
    tariff := { s.tariff with schedule := after, band := bandAt after s.tariff.second }
    port := s.port.answered .ok (BitVec.ofNat 16 (16 * after.length + (bandAt after s.tariff.second).toNat)) }

theorem State.answer_rescheduled {s : State} {after : List (Nat × BitVec 2)}
    (places : after.length ≤ Config.schedulePlaces) :
    (s.taken.onTariff fun t => { t with schedule := after }.withBand).answer .ok
      ({ s.tariff with schedule := after } : Tariff).withBand.bandWord = s.rescheduled after := by
  rw [Tariff.bandWord_eq (t := ({ s.tariff with schedule := after } : Tariff).withBand) places]
  rfl

theorem writeBand_next {s : State} (h : s.listens) (minute : BitVec 11) (band : BitVec 2) :
    exec (.writeBand minute band) s = .next (
      if 1439 < minute.toNat then s.replied .range 0
      else if hasMinute minute.toNat s.tariff.schedule = false ∧ Config.schedulePlaces ≤ s.tariff.schedule.length then
        s.replied .full 0
      else (s.taken.onTariff fun t => { t with schedule := putBand minute.toNat band t.schedule }.withBand).answer .ok
        ({ s.tariff with schedule := putBand minute.toNat band s.tariff.schedule } : Tariff).withBand.bandWord) :=
  done_takeFrame h rfl

theorem clearBand_next {s : State} (h : s.listens) (minute : BitVec 11) :
    exec (.clearBand minute) s = .next (
      if 1439 < minute.toNat then s.replied .range 0
      else (s.taken.onTariff fun t => { t with schedule := t.schedule.filter fun e => e.1 != minute.toNat }.withBand).answer
        .ok ({ s.tariff with schedule := s.tariff.schedule.filter fun e => e.1 != minute.toNat } : Tariff).withBand.bandWord) :=
  done_takeFrame h rfl

/-- Settles O10. -/
theorem bandFrames : Obligations.BandFrames := by
  intro s minute band h ⟨_, _, places, ascending, _⟩
  refine ⟨fun late => ⟨?_, ?_⟩, fun inDay full absent => ?_, fun inDay room =>
    ⟨putBand minute.toNat band s.tariff.schedule, ?_, putBand_pairwise _ _ ascending, mem_putBand ascending, ?_⟩,
    fun inDay => ⟨s.tariff.schedule.filter fun e => e.1 != minute.toNat, ?_, List.filter_sublist, fun e => ?_⟩⟩
  · rw [writeBand_next h, if_pos late]
  · rw [clearBand_next h, if_pos late]
  · have none : hasMinute minute.toNat s.tariff.schedule = false :=
      Bool.eq_false_iff.2 fun there => by
        obtain ⟨e, mem, same⟩ := (hasMinute_iff _ _).1 there
        exact absent e mem same
    rw [writeBand_next h, if_neg (by omega), if_pos ⟨none, full.ge⟩]
  · have admitted : ¬(hasMinute minute.toNat s.tariff.schedule = false ∧
        Config.schedulePlaces ≤ s.tariff.schedule.length) := by
      rintro ⟨none, full⟩
      obtain below | there := room
      · exact absurd below (not_lt.2 full)
      · rw [(hasMinute_iff _ _).2 there] at none
        nomatch none
    rw [writeBand_next h, if_neg (by omega), if_neg admitted]
    refine congrArg Host.Outcome.next (State.answer_rescheduled ?_)
    rw [length_putBand _ _ ascending]
    split
    · exact places
    · next none => exact Nat.lt_of_not_le fun full => admitted ⟨by simpa using none, full⟩
  · rw [length_putBand _ _ ascending]
    simp only [hasMinute_iff]
  · rw [clearBand_next h, if_neg (by omega)]
    exact congrArg Host.Outcome.next (State.answer_rescheduled ((List.length_filter_le _ _).trans places))
  · rw [List.mem_filter, bne_iff_ne, and_comm]

/-! ### The clock (O12) -/

theorem setTime_next {s : State} (h : s.listens) (second : BitVec 17) : exec (.setTime second) s = .next (
    if 86399 < second.toNat then s.replied .range 0
    else { s with
      tariff := { s.tariff with
        second := second.toNat, part := 0, timeSet := true, band := bandAt s.tariff.schedule second.toNat }
      port := s.port.answered .ok ((BitVec.ofBool !(s.tariff.daySet && true)).setWidth 16) }) :=
  done_takeFrame h rfl

theorem setDay_next {s : State} (h : s.listens) (day : BitVec 16) : exec (.setDay day) s = .next { s with
    tariff := { s.tariff with day := day, daySet := true }
    port := s.port.answered .ok ((BitVec.ofBool !(true && s.tariff.timeSet)).setWidth 16) } :=
  done_takeFrame h rfl

theorem unsetWord : ∀ b : Bool, (BitVec.ofBool (!b)).setWidth 16 = if b then 0#16 else 1#16 := by decide

/-- The day after a day, which stops at 65,535 (R122). -/
theorem nextDay (day : BitVec 16) :
    (if day = 0xFFFF#16 then day else day + 1) = BitVec.ofNat 16 (min 65535 (day.toNat + 1)) := by
  apply BitVec.eq_of_toNat_eq
  rw [BitVec.toNat_ofNat]
  split
  · next last => subst last; rfl
  · next before =>
    have : day.toNat ≠ 65535 := fun n => before (BitVec.eq_of_toNat_eq n)
    have := day.isLt
    rw [BitVec.toNat_add]
    show (day.toNat + 1) % 65536 = min 65535 (day.toNat + 1) % 65536
    omega

theorem Tariff.clockStep_counted (t : Tariff) : t.clockStep = { t.counted with
    band := if ∃ e ∈ t.schedule, 60 * e.1 = t.counted.second then bandAt t.schedule t.counted.second else t.band } := by
  have starts : t.counted.schedule.any (fun e => 60 * e.1 == t.counted.second) = true ↔
      ∃ e ∈ t.schedule, 60 * e.1 = t.counted.second := by
    simp only [counted_schedule, List.any_eq_true, beq_iff_eq]
  rw [clockStep_eq]
  by_cases there : ∃ e ∈ t.schedule, 60 * e.1 = t.counted.second
  · rw [if_pos (starts.2 there), if_pos there]
    simp only [withBand, counted_schedule]
  · rw [if_neg (there ∘ starts.1), if_neg there, ← counted_band t]

/-- Settles O12. -/
theorem clockCommands : Obligations.ClockCommands := by
  intro s
  refine ⟨fun h day => ?_, fun h second late => ?_, fun h second inDay => ?_, fun h before => ?_, fun h last => ?_⟩
  · rw [setDay_next h, Bool.true_and, unsetWord]
    rfl
  · rw [setTime_next h, if_pos (by omega)]
  · rw [setTime_next h, if_neg (by omega), Bool.and_true, unsetWord]
    rfl
  · refine done_event h (congrArg (fun t => ({ s with tariff := t } : State)) ?_)
    rw [Tariff.clockStep_counted, Tariff.counted, if_pos (by omega)]
  · have midnight : (∃ e ∈ s.tariff.schedule, 60 * e.1 = 0) ↔ ∃ e ∈ s.tariff.schedule, e.1 = 0 :=
      exists_congr fun e => and_congr_right fun _ => by omega
    refine done_event h (congrArg (fun t => ({ s with tariff := t } : State)) ?_)
    rw [Tariff.clockStep_counted, Tariff.counted, if_neg (by omega), nextDay]
    simp only [midnight]

/-! ### The takings (O13) -/

theorem flatMap_pair_getElem {α β : Type} (f g : α → β) (l : List α) (i : Nat) :
    (l.flatMap fun x => [f x, g x])[2 * i]? = l[i]?.map f ∧ (l.flatMap fun x => [f x, g x])[2 * i + 1]? = l[i]?.map g := by
  induction l generalizing i with
  | nil => exact ⟨rfl, rfl⟩
  | cons x l ih =>
    cases i with
    | zero => exact ⟨rfl, rfl⟩
    | succ i => exact ih i

/-- A counter is its two words (R127). -/
theorem serialWords_value {n : Nat} (h : n ≤ 4294967295) :
    n = 65536 * ((BitVec.ofNat 32 n).extractLsb' 16 16).toNat + ((BitVec.ofNat 32 n).extractLsb' 0 16).toNat := by
  simp only [BitVec.extractLsb'_toNat, BitVec.toNat_ofNat, Nat.shiftRight_eq_div_pow]
  omega

theorem Tariff.takingsWords_getElem {t : Tariff} (h : t.legal) (i : Fin 16) : ∃ high low,
    t.takingsWords[2 * i.val]? = some high ∧ t.takingsWords[2 * i.val + 1]? = some low ∧
    t.takings[i] = 65536 * high.toNat + low.toNat := by
  obtain ⟨-, -, -, -, -, takings⟩ := h
  have there : t.takings.toList[i.val]? = some t.takings[i] := by simp
  obtain ⟨high, low⟩ := flatMap_pair_getElem (fun n => (BitVec.ofNat 32 n).extractLsb' 16 16)
    (fun n => (BitVec.ofNat 32 n).extractLsb' 0 16) t.takings.toList i.val
  rw [there] at high low
  exact ⟨_, _, high, low, serialWords_value (takings i)⟩

theorem collectTakings_next {s : State} (h : s.serves) : exec .collectTakings s = .next { s with
    tariff := { s.tariff with takings := Vector.replicate 16 0 }
    port := { s.port.answered .ok (toWord ((s.tariff.takings.toList.filter (· == Config.maxTakings)).length)) with
      buffer := s.tariff.takingsWords, pointer := 0 } } := done_running h rfl

/-- Settles O13: by the passage of `Keeps`, whose `takings` no other command lowers. -/
theorem takingsAreCollectedAndNeverFall : Obligations.TakingsAreCollectedAndNeverFall := by
  refine ⟨fun s h legal => ⟨s.tariff.takingsWords, ?_, Keeps.length_takingsWords s.tariff,
    s.tariff.takingsWords_getElem legal⟩, fun c s t legal other unreset next i => ?_⟩
  · rw [collectTakings_next h, ← List.countP_eq_length_filter]
    rfl
  · have kept := exec_keeps next
    obtain ⟨-, -, -, -, -, bounded⟩ := kept.tariff legal
    refine ⟨kept.takings (fun cleared => ?_) legal i, bounded i⟩
    obtain collected | reset := cleared
    · exact other collected
    · rw [unreset] at reset
      nomatch reset

/-! ### The settings (O14) -/

theorem lineOperand_some : ∀ l : LineIx, lineOperand (BitVec.ofNat 3 l.val) = some l := by decide

theorem lineOperand_none {line : BitVec 3} (h : 6 ≤ line.toNat) : lineOperand line = none := dif_neg (by omega)

theorem configureLinePeriod_next {s : State} (h : s.listens) (line : BitVec 3) (period : BitVec 17) :
    exec (.configureLinePeriod line period) s = .next (match lineOperand line with
      | none => s.replied .range 0
      | some l =>
        if ((s.line l).held.withPeriod (clamp 40 250 period.toNat)).fits then
          { s.withLine l { s.line l with held := (s.line l).held.withPeriod (clamp 40 250 period.toNat) } with
            port := s.port.answered .ok (toWord (clamp 40 250 period.toNat)) }
        else s.replied .range 0) := by
  refine done_takeFrame h ?_
  cases lineOperand line <;> rfl

theorem configureLineTiming_next {s : State} (h : s.listens) (line : BitVec 3) (pitch : BitVec 9) :
    exec (.configureLineTiming line pitch) s = .next (match lineOperand line with
      | none => s.replied .range 0
      | some l =>
        if 1000 < s.port.staging.value.toNat ∨ pitch.toNat < 25 ∨ 255 < pitch.toNat ∨
            ((s.line l).held.withWindows s.port.staging.value.toNat pitch.toNat).fits = false then s.replied .range 0
        else { s.withLine l { s.line l with
              held := (s.line l).held.withWindows s.port.staging.value.toNat pitch.toNat } with
            port := s.port.answered .ok 0 }) := by
  refine done_takeFrame h ?_
  cases lineOperand line <;> rfl

/-- A whole-operand field in its range is its own word. -/
theorem toWord_operand {op : BitVec 20} : toWord op.toNat = op.setWidth 16 := by
  apply BitVec.eq_of_toNat_eq
  rw [toWord, BitVec.toNat_ofNat, BitVec.toNat_setWidth]

/-- A setting with a range is taken whole or refused (R182). -/
theorem onRange_eq {lo hi : Nat} {op : BitVec 20} {s t : State} {act : Nat → State}
    (taken : lo ≤ op.toNat → op.toNat ≤ hi → act op.toNat = t) : (match inRange lo hi op with
      | none => s.taken.answer .range 0
      | some n => act n) = if lo ≤ op.toNat ∧ op.toNat ≤ hi then t else s.replied .range 0 := by
  unfold inRange
  by_cases inside : lo ≤ op.toNat ∧ op.toNat ≤ hi
  · rw [if_pos inside, if_pos inside]
    exact taken inside.1 inside.2
  · rw [if_neg inside, if_neg inside]
    rfl

theorem answered_operand {s : State} {op : BitVec 20} (g : Settings) :
    { s with settings := g, port := s.port.answered .ok (toWord op.toNat) } =
      ({ s with settings := g, port := s.port.answered .ok (op.setWidth 16) } : State) := by rw [toWord_operand]

/-- Settles O14. -/
theorem settingsFrames : Obligations.SettingsFrames := by
  refine ⟨fun s h => ⟨fun line period out => ?_, fun line pitch out => ?_, fun l period => ⟨clamp 40 250 period.toNat,
    (clamp_spec ..).1, (clamp_spec ..).2.1 (by decide), (clamp_spec ..).2.2, ?_⟩, fun l pitch => ?_⟩, fun s op h =>
    ⟨done_takeFrame h ?_, done_takeFrame h ?_, done_takeFrame h ?_⟩⟩
  · rw [configureLinePeriod_next h, lineOperand_none out]
  · rw [configureLineTiming_next h, lineOperand_none out]
  · rw [configureLinePeriod_next h, lineOperand_some]
    simp only [Timing.fits_iff]
    rfl
  · rw [configureLineTiming_next h, lineOperand_some]
    simp only [← Bool.not_eq_true, Timing.fits_iff]
    by_cases fit : s.port.staging.value.toNat ≤ 1000 ∧ 25 ≤ pitch.toNat ∧ pitch.toNat ≤ 255 ∧
        s.port.staging.value.toNat + 8 * pitch.toNat ≤ 10 * (s.line l).held.period
    · rw [if_pos fit, if_neg (by dsimp only [Timing.withWindows]; omega)]
      rfl
    · rw [if_neg fit, if_pos (by dsimp only [Timing.withWindows]; omega)]
  · exact onRange_eq fun _ _ => answered_operand _
  · refine (onRange_eq (lo := 0) (hi := 30) fun _ _ => answered_operand _).trans ?_
    simp only [Nat.zero_le, true_and]
    rfl
  · exact onRange_eq fun _ _ => answered_operand _

end Sys2Proof.Machine
end

section
/-!
PROOFS. The row lines: cycles and their frames, transmissions and the classes of windows (O17, O18, O19).
-/

namespace Sys2Proof.Machine

/-! ### The fields of a cycle-open frame -/

/-- Bits above those appended are found as far above them as before. -/
theorem extract_past {w v len s : Nat} {x : BitVec w} {y : BitVec v} {z : BitVec len} (h : x.extractLsb' s len = z) :
    (x ++ y).extractLsb' (s + v) len = z := by
  rw [extract_above _ _ (Nat.le_add_left _ _), Nat.add_sub_cancel, h]

theorem extract_within {w n m s : Nat} (x : BitVec w) (a : Nat) (h : s + n ≤ m) :
    x.extractLsb' (a + s) n = (x.extractLsb' a m).extractLsb' s n := by
  apply BitVec.eq_of_getLsbD_eq
  intro i hi
  simp only [BitVec.getLsbD_extractLsb', hi, show s + i < m by omega, decide_true, Bool.true_and, Nat.add_assoc]

theorem getLsbD_within {w m i : Nat} (x : BitVec w) (a : Nat) (h : i < m) :
    x.getLsbD (a + i) = (x.extractLsb' a m).getLsbD i := by
  simp only [BitVec.getLsbD_extractLsb', h, decide_true, Bool.true_and]

theorem State.cycleFrame_order (s : State) (l : LineIx) (count : BitVec 4) (k : Fin 8) :
    (s.cycleFrame l count).extractLsb' (155 - 21 * k.val) 21 = s.orderBits l k := by
  match k with
  | 7 => exact extract_past (extract_low _ _)
  | 6 => exact extract_past (extract_past (extract_low _ _))
  | 5 => exact extract_past (extract_past (extract_past (extract_low _ _)))
  | 4 => exact extract_past (extract_past (extract_past (extract_past (extract_low _ _))))
  | 3 => exact extract_past (extract_past (extract_past (extract_past (extract_past (extract_low _ _)))))
  | 2 => exact extract_past (extract_past (extract_past (extract_past (extract_past (extract_past (extract_low _ _))))))
  | 1 => exact extract_past (extract_past (extract_past (extract_past (extract_past (extract_past (extract_past (extract_low _ _)))))))
  | 0 => exact extract_past (extract_past (extract_past (extract_past (extract_past (extract_past (extract_past (extract_past (extract_low _ _))))))))

theorem State.cycleFrame_head (s : State) (l : LineIx) (count : BitVec 4) :
    (s.cycleFrame l count).extractLsb' 176 7 = BitVec.ofNat 3 l.val ++ count :=
  extract_past (extract_past (extract_past (extract_past (extract_past (extract_past (extract_past (extract_past (extract_past (BitVec.extractLsb'_eq_self)))))))))

theorem Order.bits_fields (o : Order) : o.bits.extractLsb' 17 4 = o.verdict.code ∧ o.bits.getLsbD 16 = o.warn ∧
    o.bits.extractLsb' 0 16 = BitVec.ofNat 16 o.shown := by
  refine ⟨extract_past (extract_past BitVec.extractLsb'_eq_self), (getLsbD_above (v := 16) _ _ le_rfl).trans ?_,
    extract_low _ _⟩
  rw [BitVec.getLsbD_append, if_pos (by decide), BitVec.getLsbD_ofBool]
  rfl

theorem State.cycleFrame_fields (s : State) (l : LineIx) (count : BitVec 4) :
    (s.cycleFrame l count).extractLsb' 180 3 = BitVec.ofNat 3 l.val ∧
    (s.cycleFrame l count).extractLsb' 176 4 = count ∧
    (∀ k : Fin 8,
      (s.cycleFrame l count).extractLsb' (155 - 21 * k.val + 17) 4 = (s.ctx (posOf l k)).order.verdict.code ∧
      (s.cycleFrame l count).getLsbD (155 - 21 * k.val + 16) = (s.ctx (posOf l k)).order.warn ∧
      (s.cycleFrame l count).extractLsb' (155 - 21 * k.val) 16 = BitVec.ofNat 16 (s.ctx (posOf l k)).order.shown) ∧
    (s.cycleFrame l count).extractLsb' 0 8 = crc8 (msbFirst ((s.cycleFrame l count).extractLsb' 8 175)) := by
  have body : (s.cycleFrame l count).extractLsb' 8 175 = s.frameBody l count := extract_high _ _
  refine ⟨?_, ?_, fun k => ?_, ?_⟩
  · exact (extract_within (m := 7) (s := 4) _ 176 (by decide)).trans
      ((congrArg _ (s.cycleFrame_head l count)).trans (extract_high _ _))
  · exact (extract_within (m := 7) (s := 0) _ 176 (by decide)).trans
      ((congrArg _ (s.cycleFrame_head l count)).trans (extract_low _ _))
  · obtain ⟨verdict, warn, shown⟩ := (s.ctx (posOf l k)).order.bits_fields
    rw [extract_within (m := 21) _ _ (by decide), getLsbD_within (m := 21) _ _ (by decide),
      ← Nat.add_zero (155 - 21 * k.val), extract_within (m := 21) (n := 16) _ _ (by decide), Nat.add_zero, s.cycleFrame_order]
    exact ⟨verdict, warn, shown⟩
  · rw [body]
    exact extract_low _ _

/-! ### The start of a cycle and the end of its frame (O17) -/

theorem cycleStart_next {s : State} (h : s.pins.released = true) (l : LineIx) :
    exec (.cycleStart l) s = .next (if (s.line l).cycleDue then s.withLine l { s.line l with
      state := (s.line l).stateAt ((s.line l).count + 1), count := (s.line l).count + 1, cycle := (s.line l).held
      phase := .sending (s.cycleFrame l ((s.line l).count + 1)), receiver := none, record := .noStart } else s) :=
  done_event h rfl

/-- Settles O17. -/
theorem cyclesOpenWithAFrame : Obligations.CyclesOpenWithAFrame := by
  refine ⟨fun s l h => ⟨?_, fun idle => ?_, fun f sending => done_event h ?_⟩, State.cycleFrame_fields⟩
  · rintro count rfl driven ended
    rw [cycleStart_next h, if_pos (by rw [Line.cycleDue, driven, ended]; rfl)]
    rfl
  · rw [cycleStart_next h, if_neg]
    rw [Line.cycleDue, Bool.and_eq_true_iff, decide_eq_true_iff]
    rintro ⟨driven, ended⟩
    obtain undriven | elsewhere := idle
    · rw [undriven] at driven
      nomatch driven
    · exact elsewhere ended
  · show s.withLine l (s.line l).frameEnd = _
    rw [Line.frameEnd, sending]

/-! ### Transmissions (O18) -/

/-- The first window that closes after a time is the one that time falls in (R48). -/
theorem Timing.slotAt_cases (t : Timing) (time : Nat) :
    (∀ k, t.slotAt time = some k → (k = 0 ∨ 100 * (t.offset + k.val * t.pitch) ≤ time) ∧
      time < 100 * (t.offset + (k.val + 1) * t.pitch)) ∧
    (t.slotAt time = none → 100 * (t.offset + 8 * t.pitch) ≤ time) := by
  have closes : ∀ k : Fin 8, t.opens (k.val + 1) = 100 * (t.offset + (k.val + 1) * t.pitch) := fun _ => rfl
  refine ⟨fun k found => ?_, fun none => ?_⟩
  · obtain ⟨inside, before, after, split, earlier⟩ := List.find?_eq_some_iff_append.1 found
    rw [decide_eq_true_iff, closes] at inside
    refine ⟨?_, inside⟩
    by_cases first : k = 0
    · exact .inl first
    · have above : 0 < k.val := Nat.pos_of_ne_zero fun n => first (Fin.ext n)
      have place : before ++ k :: after = List.finRange 8 := split.symm
      have passed : (⟨k.val - 1, by omega⟩ : Fin 8) ∈ before := by
        have rising : (before ++ k :: after).Pairwise (· < ·) := place ▸ (by decide)
        have mem : (⟨k.val - 1, by omega⟩ : Fin 8) ∈ before ++ k :: after := place ▸ List.mem_finRange _
        obtain early | late := List.mem_append.1 mem
        · exact early
        · obtain ⟨-, tail, -⟩ := List.pairwise_append.1 rising
          obtain same | late := List.mem_cons.1 late
          · exact absurd (congrArg Fin.val same) (by simp only; omega)
          · have lt : k < (⟨k.val - 1, by omega⟩ : Fin 8) := (List.pairwise_cons.1 tail).1 _ late
            exact absurd (Fin.lt_def.1 lt) (by simp only; omega)
      have missed := earlier _ passed
      rw [Bool.not_eq_true', decide_eq_false_iff_not, closes, Nat.not_lt] at missed
      simp only [Nat.sub_add_cancel above] at missed
      exact .inr missed
  · have last := List.find?_eq_none.1 none 7 (by decide)
    rw [decide_eq_true_iff, Nat.not_lt] at last
    exact last

/-- Windows are apart, so a time falls in one of them at most. -/
theorem Timing.windows_apart (t : Timing) {time : Nat} {j k : Nat} (before : time < 100 * (t.offset + (j + 1) * t.pitch))
    (after : 100 * (t.offset + k * t.pitch) ≤ time) : k ≤ j := by
  by_contra later
  have : (j + 1) * t.pitch ≤ k * t.pitch := Nat.mul_le_mul_right _ (by omega)
  omega

theorem Timing.slotAt_iff (t : Timing) (time : Nat) :
    (∀ k : Fin 8, t.slotAt time = some k ↔ (k = 0 ∨ 100 * (t.offset + k.val * t.pitch) ≤ time) ∧
      time < 100 * (t.offset + (k.val + 1) * t.pitch)) ∧
    (t.slotAt time = none ↔ 100 * (t.offset + 8 * t.pitch) ≤ time) := by
  obtain ⟨found, none⟩ := t.slotAt_cases time
  refine ⟨fun k => ⟨found k, fun ⟨opened, open'⟩ => ?_⟩, none, fun late => ?_⟩
  · cases slot : t.slotAt time with
    | none => exact absurd (t.windows_apart open' (none slot)) (by omega)
    | some j =>
      obtain ⟨started, closes⟩ := found j slot
      have below : k.val ≤ j.val := by
        obtain rfl | opened := opened
        · exact Nat.zero_le _
        · exact t.windows_apart closes opened
      have above : j.val ≤ k.val := by
        obtain rfl | started := started
        · exact Nat.zero_le _
        · exact t.windows_apart open' started
      rw [Fin.ext (le_antisymm above below)]
  · cases slot : t.slotAt time with
    | none => rfl
    | some j => exact absurd (t.windows_apart (found j slot).2 late) (by omega)

theorem transmissionStart_next {s : State} (h : s.pins.released = true) (l : LineIx) (time : Nat) {c : Line}
    (e : (s.line l).transmissionStart time = c) : exec (.transmissionStart l time) s = .next (s.withLine l c) :=
  e ▸ done_event h rfl

theorem transmissionEnd_next {s : State} (h : s.pins.released = true) (l : LineIx) (time : Nat) (bits : BitVec 38)
    {c : Line} (e : (s.line l).transmissionEnd time bits = c) :
    exec (.transmissionEnd l time bits) s = .next (s.withLine l c) := e ▸ done_event h rfl

theorem State.withLine_same (s : State) (l : LineIx) : s.withLine l (s.line l) = s := by
  unfold State.withLine State.line
  rw [show s.lines.set l.val s.lines[l] l.isLt = s.lines from Vector.set_getElem_self _]

namespace Line

variable {c : Line}

theorem listening_of_window {k : Fin 8} (driven : c.driven = true) (phase : c.phase = .window k) : c.listening = true := by
  rw [listening, driven, phase]; rfl

theorem listening_of_over (driven : c.driven = true) (phase : c.phase = .over) : c.listening = true := by
  rw [listening, driven, phase]; rfl

theorem not_listening_of_sending {f : BitVec 183} (phase : c.phase = .sending f) : c.listening = false := by
  rw [listening, phase, Bool.and_false]

theorem receiving_of_window {k : Fin 8} (phase : c.phase = .window k) (slot : Option (Fin 8)) :
    c.receiving slot = true ↔ slot = some k := by
  unfold receiving
  rw [phase]
  cases slot with
  | none => simp
  | some j => simp [eq_comm]

theorem not_receiving_of_over (phase : c.phase = .over) (slot : Option (Fin 8)) : c.receiving slot = false := by
  unfold receiving
  rw [phase]

theorem transmissionStart_taken (listening : c.listening = true) (idle : c.receiver = none) (time : Nat) :
    c.transmissionStart time = { c with
      receiver := some { start := time, slot := c.cycle.slotAt time }
      record := if c.receiving (c.cycle.slotAt time) then c.record.note time else c.record } :=
  if_pos ⟨listening, idle⟩

theorem transmissionStart_missed (away : c.listening = false ∨ c.receiver ≠ none) (time : Nat) :
    c.transmissionStart time = c := by
  refine if_neg ?_
  rintro ⟨listening, idle⟩
  obtain deaf | busy := away
  · rw [deaf] at listening
    nomatch listening
  · exact busy idle

/-- The end of a transmission that is not the first of the window being received (R48). -/
theorem transmissionEnd_dropped {r : Reception} (taking : c.receiver = some r) (away : c.receiving r.slot = false)
    (time : Nat) (bits : BitVec 38) : c.transmissionEnd time bits = { c with receiver := none } := by
  unfold transmissionEnd
  rw [taking]
  cases record : c.record <;> simp [away]

theorem transmissionEnd_kept {r : Reception} (taking : c.receiver = some r) (here : c.receiving r.slot = true)
    (first : c.record = .one { start := r.start, finish := none }) (time : Nat) (bits : BitVec 38) :
    c.transmissionEnd time bits = { c with
      receiver := none, record := .one { start := r.start, finish := some (time, bits) } } := by
  unfold transmissionEnd
  rw [taking, first]
  simp [here]

end Line

/-- Settles O18. -/
theorem transmissionsAreReceived : Obligations.TransmissionsAreReceived := by
  refine ⟨fun t time _ => t.slotAt_iff time, fun s l time h driven => ⟨fun k phase => ⟨fun idle slot => ?_,
    fun idle slot => ?_, fun busy => ?_, fun r bits taking => ⟨fun first slot => ?_, fun slot => ?_⟩⟩,
    fun phase => ⟨fun idle => ?_, fun busy => ⟨?_, fun bits => ?_⟩⟩, fun f phase => ?_⟩⟩
  · refine transmissionStart_next h l time ((Line.transmissionStart_taken (Line.listening_of_window driven phase) idle
      time).trans ?_)
    rw [slot, if_pos ((Line.receiving_of_window phase _).2 rfl)]
    cases (s.line l).record <;> rfl
  · refine transmissionStart_next h l time ((Line.transmissionStart_taken (Line.listening_of_window driven phase) idle
      time).trans ?_)
    rw [if_neg (slot ∘ (Line.receiving_of_window phase _).1)]
  · rw [transmissionStart_next h l time (Line.transmissionStart_missed (.inr busy) time), State.withLine_same]
  · exact transmissionEnd_next h l time bits
      (Line.transmissionEnd_kept taking ((Line.receiving_of_window phase _).2 slot) first time bits)
  · exact transmissionEnd_next h l time bits (Line.transmissionEnd_dropped taking
      (Bool.eq_false_iff.2 (slot ∘ (Line.receiving_of_window phase _).1)) time bits)
  · refine transmissionStart_next h l time ((Line.transmissionStart_taken (Line.listening_of_over driven phase) idle
      time).trans ?_)
    rw [Line.not_receiving_of_over phase]
    rfl
  · rw [transmissionStart_next h l time (Line.transmissionStart_missed (.inr busy) time), State.withLine_same]
  · obtain ⟨r, taking⟩ := Option.ne_none_iff_exists'.1 busy
    exact transmissionEnd_next h l time bits
      (Line.transmissionEnd_dropped taking (Line.not_receiving_of_over phase _) time bits)
  · rw [transmissionStart_next h l time (Line.transmissionStart_missed
      (.inl (Line.not_listening_of_sending phase)) time), State.withLine_same]

/-! ### The class of a window (O19) -/

theorem classify_complete (t : Timing) (p : Pos) (k : Fin 8) {f : Transmission} {finish : Nat} {bits : BitVec 38}
    (ended : f.finish = some (finish, bits)) : classify t p k (.one f) =
    if f.start < t.opens k.val ∨ t.opens (k.val + 1) < finish then (.slotFault, none)
    else if reportChecks bits = false then (.checkFault, none)
    else if reportPosition bits ≠ Pos.number p then (.positionFault, none)
    else (.valid, some bits) := by
  unfold classify
  dsimp only
  rw [ended]

theorem reportPosition_iff (bits : BitVec 38) : ∀ p : Pos,
    reportPosition bits ≠ Pos.number p ↔ (bits.extractLsb' 32 6).toNat ≠ p.val + 1 := by
  intro p
  have number : (Pos.number p).toNat = p.val + 1 := by
    rw [Pos.number, BitVec.toNat_ofNat]
    omega
  rw [← number]
  exact not_congr BitVec.toNat_inj.symm

/-- Whether a window with one transmission is a SLOT FAULT: it began too early, ended too late, or has not ended. -/
theorem classify_one_slotFault (t : Timing) (p : Pos) (k : Fin 8) (f : Transmission) :
    (classify t p k (.one f)).1 = .slotFault ↔ f.start < t.opens k.val ∨
      ∀ finish bits, f.finish = some (finish, bits) → t.opens (k.val + 1) < finish := by
  cases ended : f.finish with
  | none => simp [classify, ended]
  | some e =>
    obtain ⟨finish, bits⟩ := e
    rw [classify_complete t p k ended]
    have late : (∀ n b, some (finish, bits) = some (n, b) → t.opens (k.val + 1) < n) ↔ t.opens (k.val + 1) < finish :=
      ⟨fun h => h _ _ rfl, fun h n b e => by cases e; exact h⟩
    rw [late]
    by_cases fault : f.start < t.opens k.val ∨ t.opens (k.val + 1) < finish
    · rw [if_pos fault]
      exact iff_of_true rfl fault
    · rw [if_neg fault]
      refine iff_of_false ?_ fault
      repeat' split
      all_goals exact nofun

/-- Settles O19. -/
theorem windowsAreClassified : Obligations.WindowsAreClassified := by
  intro t p k r
  refine ⟨?_, ?_, ?_⟩
  · cases r with
    | noStart => exact iff_of_true rfl rfl
    | many f => exact iff_of_false nofun nofun
    | one f =>
      refine iff_of_false ?_ nofun
      cases ended : f.finish with
      | none => simp [classify, ended]
      | some e =>
        rw [classify_complete t p k ended]
        repeat' split
        all_goals exact nofun
  · cases r with
    | noStart => exact iff_of_false nofun (by rintro (⟨f, h⟩ | ⟨f, h, _⟩) <;> nomatch h)
    | many f => exact iff_of_true rfl (.inl ⟨f, rfl⟩)
    | one f =>
      refine (classify_one_slotFault t p k f).trans ⟨fun h => .inr ⟨f, rfl, h⟩, ?_⟩
      rintro (⟨g, h⟩ | ⟨g, h, fault⟩)
      · nomatch h
      · cases h
        exact fault
  · rintro f finish bits rfl ended opened closed
    have inside : ¬(f.start < t.opens k.val ∨ t.opens (k.val + 1) < finish) :=
      not_or.2 ⟨not_lt.2 opened, not_lt.2 closed⟩
    rw [classify_complete t p k ended, if_neg inside]
    refine if_congr ?_ rfl (if_congr (reportPosition_iff bits p) rfl rfl)
    rw [reportChecks, decide_eq_false_iff_not]

end Sys2Proof.Machine
end

section
/-!
PROOFS. The attention unit (O30, O31), the region locks (O40), lookups (O32), and the host's reading and enabling of
positions (O22).
-/

namespace Sys2Proof.Machine

/-! ### The attention unit -/

theorem Attention.clear_isSet (a : Attention) (mask : BitVec 7) (f : Flag) :
    (a.clear mask).isSet f = (a.isSet f && !mask.getLsbD f.bit) := by
  have cleared : ∀ {α : Type} (x : Option α) (b : Bool), (if b then none else x).isSome = (x.isSome && !b) := by
    intro α x b
    cases b <;> cases x <;> rfl
  have off : ∀ x b : Bool, (if b then false else x) = (x && !b) := by decide
  cases f
  · exact cleared _ _
  · exact cleared _ _
  · exact cleared _ _
  · exact cleared _ _
  · exact cleared _ _
  · exact off _ _
  · exact cleared _ _

theorem Attention.clear_eq (a : Attention) (mask : BitVec 7) : a.clear mask = { a with
    hotCard := if mask.getLsbD 0 then none else a.hotCard
    storeFault := if mask.getLsbD 1 then none else a.storeFault
    lineFault := if mask.getLsbD 2 then none else a.lineFault
    positionLost := if mask.getLsbD 3 then none else a.positionLost
    tariffFault := if mask.getLsbD 4 then none else a.tariffFault
    takingsFull := a.takingsFull && !mask.getLsbD 5
    admission := if mask.getLsbD 6 then none else a.admission } := by
  have off : ∀ x b : Bool, (if b then false else x) = (x && !b) := by decide
  rw [Attention.clear, off]

theorem Attention.word_eq (a : Attention) :
    a.word = 0#1 ++ (if a.mode = .pulse then 1#1 else 0#1) ++ a.mask ++ a.flags := by
  unfold Attention.word
  cases a.mode <;> rfl

theorem Attention.setMode_eq (a : Attention) (pulse : Bool) (mask : BitVec 7) :
    a.setMode (if pulse then .pulse else .level) mask = { a with
      mask := mask, mode := if pulse then .pulse else .level
      pulses := if pulse ∧ a.mode = .pulse then a.pulses else 0
      driving := pulse && decide (a.mode = .pulse) && a.driving } := by
  unfold Attention.setMode
  cases pulse
  · rfl
  · cases mode : a.mode
    · rfl
    · simp

/-- The words of the detail, each at its place (11.3). -/
theorem State.attentionWords_hot (s : State) :
    (s.attention.hotCard = none →
      s.attentionWords[1]? = some 0 ∧ s.attentionWords[2]? = some 0 ∧ s.attentionWords[3]? = some 0) ∧
    ∀ x p, s.attention.hotCard = some (x, p) →
      s.attentionWords[1]? = some (x.extractLsb' 16 16) ∧ s.attentionWords[2]? = some (x.extractLsb' 0 16) ∧
      s.attentionWords[3]? = some (BitVec.ofNat 16 (p.val + 1)) := by
  have number : ∀ p : Pos, (posCode (some p)).setWidth 16 = BitVec.ofNat 16 (p.val + 1) := by decide
  have words : s.attentionWords[1]? = some (((s.attention.hotCard.map Prod.fst).getD 0).extractLsb' 16 16) ∧
      s.attentionWords[2]? = some (((s.attention.hotCard.map Prod.fst).getD 0).extractLsb' 0 16) ∧
      s.attentionWords[3]? = some ((posCode (s.attention.hotCard.map Prod.snd)).setWidth 16) := ⟨rfl, rfl, rfl⟩
  refine ⟨fun clear => ?_, fun x p hot => ?_⟩
  · rw [clear] at words
    exact words
  · rw [hot] at words
    exact ⟨words.1, words.2.1, words.2.2.trans (congrArg some (number p))⟩

theorem State.attentionWords_store (s : State) :
    (s.attention.storeFault = none → s.attentionWords[4]? = some 0 ∧ s.attentionWords[5]? = some 0) ∧
    ∀ f ∈ s.attention.storeFault, s.attentionWords[4]? = some (BitVec.ofNat 16 f.slot.val) ∧
      (f.cause = none → s.attentionWords[5]? = some 0x8000#16) ∧
      ∀ kind origin, f.cause = some (kind, origin) →
        s.attentionWords[5]? = some (0#6 ++ kind.code ++ 0#6 ++ origin.code) := by
  have slot : s.attentionWords[4]? = some ((s.attention.storeFault.map fun f => toWord f.slot.val).getD 0) := rfl
  have cause : s.attentionWords[5]? = some (match s.attention.storeFault with
    | none => 0
    | some f =>
      match f.cause with
      | none => 0x8000#16
      | some (kind, origin) => 0#6 ++ kind.code ++ 0#6 ++ origin.code) := rfl
  refine ⟨fun clear => ?_, fun f fault => ⟨?_, fun unnamed => ?_, fun kind origin named => ?_⟩⟩
  · rw [clear] at slot cause
    exact ⟨slot, cause⟩
  · rw [slot, fault]
    rfl
  · rw [cause, fault]
    dsimp only
    rw [unnamed]
  · rw [cause, fault]
    dsimp only
    rw [named]

theorem State.attentionWords_tariff (s : State) :
    (s.attention.tariffFault = none → s.attentionWords[10]? = some 0) ∧
    ∀ zone band, s.attention.tariffFault = some (zone, band) →
      s.attentionWords[10]? = some (0#10 ++ zone ++ band) := by
  have word : s.attentionWords[10]? = some (match s.attention.tariffFault with
    | none => 0
    | some (zone, band) => 0#10 ++ zone ++ band) := rfl
  refine ⟨fun clear => ?_, fun zone band fault => ?_⟩
  · rw [word, clear]
  · rw [word, fault]

/-- A lost position is a bit of one of three words. -/
theorem State.attentionWords_lost (s : State) (p : Pos) : ∃ w, s.attentionWords[7 + p.val / 16]? = some w ∧
    w.getLsbD (p.val % 16) = (s.attention.positionLost.getD 0).getLsbD p.val := by
  have bit : ∀ (x : BitVec 48) (i : Nat), (x.extractLsb' i 16).getLsbD (p.val % 16) = x.getLsbD (i + p.val % 16) := by
    intro x i
    simp only [BitVec.getLsbD_extractLsb', show p.val % 16 < 16 by omega, decide_true, Bool.true_and]
  obtain place | place | place : p.val / 16 = 0 ∨ p.val / 16 = 1 ∨ p.val / 16 = 2 := by omega
  all_goals
    rw [place]
    refine ⟨_, rfl, (bit _ _).trans (congrArg _ ?_)⟩
    omega

theorem Attention.beginPulse_ended (a : Attention) : { a with driving := false }.beginPulse = { a with
    driving := decide (0 < a.pulses), pulses := a.pulses - 1 } := by
  unfold Attention.beginPulse
  by_cases counted : 0 < a.pulses
  · rw [if_pos ⟨counted, rfl⟩, decide_eq_true counted]
  · rw [if_neg fun h => counted h.1, decide_eq_false counted, Nat.eq_zero_of_not_pos counted]

/-- Settles O30. -/
theorem attentionFrames : Obligations.AttentionFrames := by
  refine ⟨fun s h => ⟨s.attention.flags_bit, ?_, fun mask => ⟨_, done_running h rfl, rfl, s.attention.clear_isSet mask,
    s.attention.clear_eq mask⟩, fun pulse mask => ?_, s.attentionWords, rfl, done_running h rfl,
    congrArg some s.attention.word_eq, s.attentionWords_hot.1, s.attentionWords_store.1, s.attentionWords_tariff.1,
    s.attentionWords_hot.2, s.attentionWords_store.2, rfl, s.attentionWords_lost, s.attentionWords_tariff.2, rfl, rfl,
    rfl⟩, fun s h => ⟨fun mode driving => ?_, fun idle => ?_⟩⟩
  · rw [← Attention.word_eq]
    exact done_running h rfl
  · rw [← Attention.setMode_eq]
    exact done_running h rfl
  · rw [← Attention.beginPulse_ended]
    exact done_event h (congrArg (fun a => ({ s with attention := a } : State)) (if_pos ⟨mode, driving⟩))
  · refine done_event h (congrArg (fun a => ({ s with attention := a } : State)) (if_neg ?_))
    rintro ⟨mode, driving⟩
    obtain level | off := idle
    · rw [level] at mode
      nomatch mode
    · rw [off] at driving
      nomatch driving

/-! ### The seven events (O31) -/

/-- The attention unit after an event of flag `f` that makes the flags `set` (R174). -/
def Attention.pulsed (f : Flag) (old set : Attention) : Attention :=
  if old.mode = .pulse ∧ old.isSet f = false ∧ old.mask.getLsbD f.bit = true then
    { set with driving := true, pulses := if old.driving then min 7 (old.pulses + 1) else 0 }
  else set

/-- An event gives one pulse in PULSE mode where its flag was clear and enabled (R174). -/
theorem Attention.afterEvent_eq {old set : Attention} (h : old.legal) (f : Flag) (mode : set.mode = old.mode)
    (mask : set.mask = old.mask) (pulses : set.pulses = old.pulses) (driving : set.driving = old.driving) :
    old.afterEvent f set = old.pulsed f set := by
  unfold Attention.afterEvent Attention.pulsed
  rw [mode, mask]
  split
  · unfold Attention.beginPulse
    dsimp only
    rw [driving, pulses]
    cases on : old.driving with
    | false =>
      have none : old.pulses = 0 := by
        by_contra some
        rw [h.2.2 (Nat.pos_of_ne_zero some)] at on
        nomatch on
      rw [none]
      rfl
    | true =>
      rw [if_neg fun h => nomatch h.2]
      rfl
  · rfl

theorem State.raise_eq {s : State} (h : s.attention.legal) (f : Flag) {update : Attention → Attention}
    (keeps : (update s.attention).mode = s.attention.mode ∧ (update s.attention).mask = s.attention.mask ∧
      (update s.attention).pulses = s.attention.pulses ∧ (update s.attention).driving = s.attention.driving) :
    s.raise f update = { s with attention := s.attention.pulsed f (update s.attention) } := by
  obtain ⟨mode, mask, pulses, driving⟩ := keeps
  rw [← Attention.afterEvent_eq h f mode mask pulses driving]
  rfl

/-- A member joins a set that is held as a word, which may be absent. -/
theorem getLsbD_joined {n : Nat} (before : Option (BitVec n)) (i j : Fin n) :
    (before.getD 0 ||| 1#n <<< i.val).getLsbD j.val = (decide (j = i) || before.any fun b => b.getLsbD j.val) := by
  have one : (1#n <<< i.val).getLsbD j.val = decide (j = i) := by
    rw [BitVec.getLsbD_shiftLeft, BitVec.getLsbD_one]
    rcases lt_trichotomy j.val i.val with lt | eq | gt
    · simp [lt, Fin.ext_iff, lt.ne]
    · simp [eq, Fin.ext_iff, i.pos]
    · simp [Fin.ext_iff, gt.ne', show j.val - i.val ≠ 0 by omega]
  rw [BitVec.getLsbD_or, one, Bool.or_comm]
  cases before with
  | none => exact congrArg _ BitVec.getLsbD_zero
  | some b => rfl

/-- Settles O31. -/
theorem eventsSetFlagsAndGivePulses : Obligations.EventsSetFlagsAndGivePulses := by
  refine ⟨fun s h => ⟨fun x p => State.raise_eq h _ ⟨rfl, rfl, rfl, rfl⟩, fun x cause =>
    State.raise_eq h _ ⟨rfl, rfl, rfl, rfl⟩, fun l => ⟨_, State.raise_eq h _ ⟨rfl, rfl, rfl, rfl⟩, getLsbD_joined _ l⟩,
    fun p => ⟨_, State.raise_eq h _ ⟨rfl, rfl, rfl, rfl⟩, getLsbD_joined _ p⟩, fun zone band =>
    State.raise_eq h _ ⟨rfl, rfl, rfl, rfl⟩, State.raise_eq h _ ⟨rfl, rfl, rfl, rfl⟩, fun none => ?_, fun n some => ?_⟩,
    fun s => ⟨fun reset => ?_, fun released mode => ?_, fun released mode => ?_⟩⟩
  · refine (State.raise_eq h _ ⟨rfl, rfl, rfl, rfl⟩).trans ?_
    rw [none]
    rfl
  · refine (State.raise_eq h _ ⟨rfl, rfl, rfl, rfl⟩).trans ?_
    have count : min 65535 (n + 1) = if n < 65535 then n + 1 else 65535 := by split <;> omega
    rw [some, Option.getD_some, count]
    rfl
  · unfold State.attn State.inReset
    rw [reset]
    rfl
  · unfold State.attn State.inReset
    rw [released, mode]
    rfl
  · unfold State.attn State.inReset
    rw [released, mode]
    exact Attention.anyEnabled_iff _

/-! ### The region locks (O40) -/

theorem withLock_bit (locks : BitVec 16) (r : Fin 16) (lock : Bool) {i : Nat} (h : i < 16) :
    (withLock locks r lock).getLsbD i = if i = r.val then lock else locks.getLsbD i := by
  have one : (1#16 <<< r.val).getLsbD i = decide (i = r.val) := by
    rw [BitVec.getLsbD_shiftLeft, BitVec.getLsbD_one]
    rcases lt_trichotomy i r.val with lt | rfl | gt
    · simp [lt, lt.ne]
    · simp [h]
    · simp [gt.ne', show i - r.val ≠ 0 by omega]
  unfold withLock
  cases lock
  · rw [if_neg Bool.false_ne_true, BitVec.getLsbD_and, BitVec.getLsbD_not, one, decide_eq_true h, Bool.true_and]
    by_cases e : i = r.val <;> simp [e]
  · rw [if_pos rfl, BitVec.getLsbD_or, one]
    by_cases e : i = r.val <;> simp [e]

theorem setLock_next {s : State} (h : s.armed) (op : BitVec 20) (lock : Bool) :
    exec (if lock then .lockRegion op else .unlockRegion op) s = .next (match regionOperand op with
      | none => s.repliedLatched .range 0
      | some r => { s with
        engine := { s.engine with locks := withLock s.engine.locks r lock }
        port := s.port.answeredLatched .ok (withLock s.engine.locks r lock) }) := by
  cases lock
  all_goals
    refine done_armed h ?_
    unfold State.setLock
    cases regionOperand op <;> rfl

/-- Settles O40. -/
theorem regionLockFrames : Obligations.RegionLockFrames := by
  intro s op h
  refine ⟨fun out => ?_, fun inside lock => ?_⟩
  · have none : regionOperand op = none := dif_neg (by omega)
    have unlock := setLock_next h op false
    have lock := setLock_next h op true
    rw [none] at unlock lock
    exact ⟨unlock, lock⟩
  · have some : regionOperand op = some ⟨op.toNat, by omega⟩ := dif_pos (by omega)
    refine ⟨withLock s.engine.locks ⟨op.toNat, by omega⟩ lock, ?_, fun r below => withLock_bit _ _ _ below⟩
    rw [setLock_next h, some]

/-! ### Lookups (O32) -/

theorem find?_of_unique {α β : Type} [DecidableEq β] {f : α → β} {l : List α} (once : (l.map f).Nodup) (x : β) (e : α) :
    l.find? (fun a => f a == x) = some e ↔ e ∈ l ∧ f e = x := by
  constructor
  · intro found
    exact ⟨List.mem_of_find?_eq_some found, by simpa using List.find?_some found⟩
  · rintro ⟨mem, rfl⟩
    cases found : l.find? (fun a => f a == f e) with
    | none => exact absurd (List.find?_eq_none.1 found e mem) (by simp)
    | some d =>
      have same : f d = f e := by simpa using List.find?_some found
      rw [List.inj_on_of_nodup_map once (List.mem_of_find?_eq_some found) mem same]

theorem State.lookup_some_iff {s : State} (once : (s.dir.entries.map DirEntry.serial).Nodup) (x : Serial) (e : DirEntry) :
    s.lookup x = some e ↔ e ∈ s.dir.entries ∧ e.serial = x := by
  have chain : ((s.dir.chain (bucket x)).map DirEntry.serial).Nodup := once.sublist (List.filter_sublist.map _)
  refine (find?_of_unique chain x e).trans ?_
  rw [Directory.chain, List.mem_filter, beq_iff_eq]
  exact ⟨fun ⟨⟨mem, _⟩, same⟩ => ⟨mem, same⟩, fun ⟨mem, same⟩ => ⟨⟨mem, congrArg bucket same⟩, same⟩⟩

/-- Settles O32. -/
theorem lookupsFindTheEntry : Obligations.LookupsFindTheEntry := by
  refine ⟨fun s once => ⟨State.lookup_some_iff once, fun x => ⟨fun none e mem same => ?_, fun absent => ?_⟩⟩,
    fun s once => find?_of_unique once, fun x => rfl, by decide, by decide, by decide⟩
  · have found := (State.lookup_some_iff once x e).2 ⟨mem, same⟩
    rw [none] at found
    nomatch found
  · cases found : s.lookup x with
    | none => rfl
    | some e =>
      obtain ⟨mem, same⟩ := (State.lookup_some_iff once x e).1 found
      exact absurd same (absent e mem)

/-! ### Enabling and reading a position (O22) -/

theorem positionOperand_some : ∀ p : Pos, positionOperand (BitVec.ofNat 20 (p.val + 1)) = some p := by decide

theorem positionOperand_none {op : BitVec 20} (h : op.toNat = 0 ∨ 48 < op.toNat) : positionOperand op = none := by
  unfold positionOperand
  split
  · rfl
  · exact dif_neg (by omega)

/-- A position frame acts on the position it names. -/
theorem onPosition (p : Pos) (refused : State) (act : Pos → State) :
    (match positionOperand (BitVec.ofNat 20 (p.val + 1)) with
      | none => refused
      | some p => act p) = act p := by
  rw [positionOperand_some]

theorem onNoPosition {op : BitVec 20} (h : op.toNat = 0 ∨ 48 < op.toNat) (refused : State) (act : Pos → State) :
    (match positionOperand op with
      | none => refused
      | some p => act p) = refused := by
  rw [positionOperand_none h]

/-- A change of the mark leaves the order as it was. -/
theorem Position.settled_enabled {c : Position} (h : c.order = c.currentOrder) (enabled : Bool) :
    Position.settled { c with enabled := enabled } = { c with enabled := enabled } := by
  rw [Position.settled]
  exact congrArg (fun o => { c with enabled := enabled, order := o }) h.symm

theorem State.withCtx_withCtx (s : State) (p : Pos) (c d : Position) : (s.withCtx p c).withCtx p d = s.withCtx p d := by
  unfold State.withCtx
  rw [Vector.set_set]

theorem State.ctx_withCtx_same (s : State) (p : Pos) (c : Position) : (s.withCtx p c).ctx p = c :=
  Vector.getElem_set_self _

theorem enablePosition_next {s : State} (h : s.serves) (p : Pos) :
    exec (.enablePosition (BitVec.ofNat 20 (p.val + 1))) s =
      .next ((s.taken.enablePosition p).answerPosition p) :=
  done_running h (onPosition p _ _)

theorem enablePosition_off {s : State} (h : s.serves) (orders : s.ordersCurrent) {p : Pos} (off : (s.ctx p).state = .off)
    (driven : (s.line (lineOf p)).driven = true) : exec (.enablePosition (BitVec.ofNat 20 (p.val + 1))) s =
      .next { s.withCtx p { s.ctx p with enabled := true, state := .vacant, silentCount := 0, highHalf := none } with
        port := s.port.answered .ok 1 } := by
  have shown : (s.ctx p).order = { verdict := .none, warn := false, shown := 0 } := by
    rw [orders p, Position.currentOrder, off]
  have ctx : (((s.taken.mark p true).leaveOff p)).ctx p =
      { s.ctx p with enabled := true, state := .vacant, silentCount := 0, highHalf := none } := by
    unfold State.leaveOff State.mark
    rw [State.ctx_onCtx_same, State.ctx_onCtx_same]
    exact congrArg (fun o => ({ s.ctx p with
      enabled := true, state := .vacant, silentCount := 0, highHalf := none, order := o } : Position)) shown.symm
  have after : s.taken.enablePosition p = s.taken.withCtx p
      { s.ctx p with enabled := true, state := .vacant, silentCount := 0, highHalf := none } := by
    rw [← ctx]
    refine (if_pos ⟨off, driven⟩).trans ?_
    unfold State.leaveOff State.mark
    rw [State.ctx_onCtx_same, State.onCtx_eq, State.onCtx_eq, State.ctx_withCtx_same, State.withCtx_withCtx]
  rw [enablePosition_next h, State.answerPosition, after, State.ctx_withCtx_same]
  rfl

theorem enablePosition_stays {s : State} (h : s.serves) (orders : s.ordersCurrent) {p : Pos}
    (stays : (s.ctx p).state ≠ .off ∨ (s.line (lineOf p)).driven = false) :
    exec (.enablePosition (BitVec.ofNat 20 (p.val + 1))) s =
      .next { s.withCtx p { s.ctx p with enabled := true } with
        port := s.port.answered .ok ((s.ctx p).state.code.setWidth 16) } := by
  have after : s.taken.enablePosition p = s.taken.withCtx p { s.ctx p with enabled := true } := by
    refine (if_neg ?_).trans ?_
    · rintro ⟨off, driven⟩
      obtain on | undriven := stays
      · exact on off
      · rw [State.taken_line, undriven] at driven
        nomatch driven
    · rw [State.mark, State.onCtx_eq]
      exact congrArg (s.taken.withCtx p) (Position.settled_enabled (orders p) true)
  rw [enablePosition_next h, State.answerPosition, after, State.ctx_withCtx_same]
  rfl

/-! ### The words of a position (11.3) -/

/-- The first word: state, sub-state, and three marks. -/
def stateWord (state : BitVec 4) (sub : BitVec 3) (enabled out dropped : Bool) : Word :=
  state ++ 0#1 ++ sub ++ 0#5 ++ BitVec.ofBool enabled ++ BitVec.ofBool out ++ BitVec.ofBool dropped

theorem getLsbD_bool {w : Nat} (x : BitVec w) (b : Bool) : (x ++ BitVec.ofBool b).getLsbD 0 = b := by
  rw [BitVec.getLsbD_append, if_pos (by decide)]
  cases b <;> rfl

theorem stateWord_fields (state : BitVec 4) (sub : BitVec 3) (enabled out dropped : Bool) :
    (stateWord state sub enabled out dropped).extractLsb' 12 4 = state ∧
    (stateWord state sub enabled out dropped).extractLsb' 8 3 = sub ∧
    (stateWord state sub enabled out dropped).getLsbD 2 = enabled ∧
    (stateWord state sub enabled out dropped).getLsbD 1 = out ∧
    (stateWord state sub enabled out dropped).getLsbD 0 = dropped :=
  ⟨extract_past (extract_past (extract_past (extract_past (extract_past (extract_past BitVec.extractLsb'_eq_self))))),
    extract_past (extract_past (extract_past (extract_past (extract_low _ _)))),
    (getLsbD_above (v := 1) _ _ (by decide)).trans ((getLsbD_above (v := 1) _ _ (by decide)).trans (getLsbD_bool _ _)),
    (getLsbD_above (v := 1) _ _ (by decide)).trans (getLsbD_bool _ _), getLsbD_bool _ _⟩

/-- The second word: class, silent count, hook, and the order's warning and verdict. -/
def reportWord (cls : BitVec 3) (silent : BitVec 4) (hook : BitVec 1) (warn : Bool) (verdict : BitVec 4) : Word :=
  cls ++ 0#1 ++ silent ++ hook ++ 0#2 ++ BitVec.ofBool warn ++ verdict

theorem reportWord_fields (cls : BitVec 3) (silent : BitVec 4) (hook : BitVec 1) (warn : Bool) (verdict : BitVec 4) :
    (reportWord cls silent hook warn verdict).extractLsb' 13 3 = cls ∧
    (reportWord cls silent hook warn verdict).extractLsb' 8 4 = silent ∧
    (reportWord cls silent hook warn verdict).getLsbD 7 = hook.getLsbD 0 ∧
    (reportWord cls silent hook warn verdict).getLsbD 4 = warn ∧
    (reportWord cls silent hook warn verdict).extractLsb' 0 4 = verdict := by
  refine ⟨extract_past (extract_past (extract_past (extract_past (extract_past (extract_past
    BitVec.extractLsb'_eq_self))))), extract_past (extract_past (extract_past (extract_past (extract_low _ _)))), ?_,
    (getLsbD_above (v := 4) _ _ (by decide)).trans (getLsbD_bool _ _), extract_low _ _⟩
  refine (getLsbD_above (v := 4) _ _ (by decide)).trans ((getLsbD_above (v := 1) _ _ (by decide)).trans
    ((getLsbD_above (v := 2) _ _ (by decide)).trans ?_))
  exact (BitVec.getLsbD_append ..).trans (if_pos (by decide))

/-- The ninth word: zone and phase of the call. -/
def callWord (zone : BitVec 4) (phase : BitVec 2) : Word := 0#4 ++ zone ++ 0#6 ++ phase

theorem callWord_fields (zone : BitVec 4) (phase : BitVec 2) :
    (callWord zone phase).extractLsb' 8 4 = zone ∧ (callWord zone phase).extractLsb' 0 2 = phase :=
  ⟨extract_past (extract_past (extract_low _ _)), extract_low _ _⟩

theorem Position.shownSerial_claim {c : Position} : (∀ k ∈ c.claim, c.shownSerial = k.serial) ∧
    (c.claim = none → c.shownSerial = (c.candidate <|> c.refusedSerial).getD 0) := by
  unfold Position.shownSerial
  refine ⟨fun k claim => ?_, fun none => ?_⟩
  · rw [claim]
  · rw [none]
    cases c.candidate <;> cases c.refusedSerial <;> rfl

/-- The sub-state that a snapshot shows. -/
def Position.subCode (c : Position) : BitVec 3 := if c.state = .grace then (c.call.map fun k => k.sub.code).getD 0 else 0

theorem readPosition_next {s : State} (h : s.serves) (p : Pos) :
    exec (.readPosition (BitVec.ofNat 20 (p.val + 1))) s = .next { s with port :=
      { s.port.answered .ok 10 with buffer := (s.ctx p).words, pointer := 0 } } := done_running h (onPosition p _ _)

/-- Settles O22. -/
theorem positionsAreEnabledAndRead : Obligations.PositionsAreEnabledAndRead := by
  refine ⟨⟨fun s p h orders => ⟨enablePosition_off h orders, enablePosition_stays h orders⟩, fun s op h out =>
    ⟨done_running h (onNoPosition out _ _), done_running h (onNoPosition out _ _), done_running h (onNoPosition out _ _),
      done_running h (onNoPosition out _ _)⟩⟩, fun s p h => ?_⟩
  generalize e : s.ctx p = c
  obtain ⟨state, sub, enabled, out, dropped⟩ := stateWord_fields c.state.code c.subCode c.enabled c.outstanding.isSome
    ((c.outstanding.map Outstanding.abandoned).getD false)
  obtain ⟨cls, silent, hook, warn, verdict⟩ := reportWord_fields c.lastClass.code (BitVec.ofNat 4 c.silentCount)
    c.lastHook.code c.order.warn c.order.verdict.code
  obtain ⟨zone, phase⟩ := callWord_fields ((c.call.map Call.zone).getD 0)
    (BitVec.ofNat 2 ((c.call.map fun k => k.phase.val).getD 0))
  refine ⟨_, _, _, ?_, Position.shownSerial_claim.1, Position.shownSerial_claim.2, state, fun grace k call => ?_,
    fun away => ?_, enabled, out, ?_, cls, silent, ?_, warn, verdict, zone, phase⟩
  · rw [readPosition_next h, e]
    rfl
  · rw [sub, Position.subCode, if_pos grace, call]
    rfl
  · rw [sub, Position.subCode, if_neg away]
  · rw [dropped]
    cases c.outstanding with
    | none => simp
    | some o => simp
  · rw [hook]
    cases c.lastHook <;> decide

end Sys2Proof.Machine
end

section
/-!
PROOFS. ISSUE, RETIRE, ERASE SLOT and the card actions that are answered at once (O33 to O36).
-/

namespace Sys2Proof.Machine

/-! ### Tests in the claims' terms -/

section Tests
variable {s : State}

/-- The admission test outside the drain (R136). -/
theorem State.hasRoom_iff (h : s.port.mode = .running) :
    s.hasRoom = true ↔ s.engine.waiting.length + 1 + s.unqueuedClaims + 1 ≤ 96 := by
  unfold State.hasRoom
  rw [Bool.and_eq_true_iff, decide_eq_true_iff, decide_eq_true_iff, h]
  exact ⟨And.right, fun room => ⟨nofun, room⟩⟩

theorem State.inUse_iff (e : DirEntry) :
    s.inUse e = true ↔ e.claimedBy ≠ none ∨ ∃ c ∈ s.dir.claims, c.serial = e.serial := by
  unfold State.inUse State.claimPending
  rw [Bool.or_eq_true_iff, Option.isSome_iff_ne_none, List.any_eq_true]
  simp only [beq_iff_eq]

theorem State.not_inUse {e : DirEntry} (h : e.claimedBy = none ∧ ∀ c ∈ s.dir.claims, c.serial ≠ e.serial) :
    s.inUse e = false :=
  Bool.eq_false_iff.2 fun used => ((inUse_iff e).1 used).elim (fun n => n h.1) fun ⟨c, mem, same⟩ => h.2 c mem same

theorem State.hasErase_iff (x : Slot) : s.hasErase x = true ↔ x ∈ s.engine.erasing := by
  unfold State.hasErase Engine.erasing State.inFlight
  simp only [List.any_eq_true, Bool.and_eq_true_iff, beq_iff_eq, List.mem_map, List.mem_filter, and_assoc]

theorem State.slotClass_orphan_iff (x : Slot) :
    s.slotClass x = 1 ↔ (∀ e ∈ s.dir.entries, e.slot ≠ x) ∧ x ∉ s.dir.free := by
  have indexed : (s.bySlot x).isSome = true ↔ ¬∀ e ∈ s.dir.entries, e.slot ≠ x := by
    unfold State.bySlot
    rw [List.find?_isSome]
    simp
  unfold State.slotClass
  by_cases placed : (s.bySlot x).isSome = true
  · rw [if_pos placed]
    exact iff_of_false (by decide) fun h => indexed.1 placed h.1
  · rw [if_neg placed]
    have absent := not_not.1 (mt indexed.2 placed)
    by_cases free : x ∈ s.dir.free
    · rw [if_pos (List.contains_iff_mem.2 free)]
      exact iff_of_false (by decide) fun h => h.2 free
    · rw [if_neg (fun n => free (List.contains_iff_mem.1 n))]
      exact iff_of_true rfl ⟨absent, free⟩

end Tests

/-! ### ISSUE (O33) -/

/-- The first slot of the free list in an unlocked region (R19). -/
theorem State.issueSlot_some {s : State} {before after : List Slot} {x : Slot} (free : s.dir.free = before ++ x :: after)
    (locked : ∀ y ∈ before, s.slotLocked y = true) (unlocked : s.slotLocked x = false) : s.issueSlot = some x := by
  refine List.find?_eq_some_iff_append.2 ⟨by simp [unlocked], before, after, free, fun y mem => ?_⟩
  simp [locked y mem]

theorem State.issueSlot_none {s : State} (locked : ∀ x ∈ s.dir.free, s.slotLocked x = true) : s.issueSlot = none :=
  List.find?_eq_none.2 fun x mem => by simp [locked x mem]

theorem filter_ne_split {before after : List Slot} {x : Slot} (early : x ∉ before) (late : x ∉ after) :
    (before ++ x :: after).filter (· ≠ x) = before ++ after := by
  have kept : ∀ l : List Slot, x ∉ l → l.filter (· ≠ x) = l := fun l away =>
    List.filter_eq_self.2 fun y mem => decide_eq_true fun e : y = x => away (e ▸ mem)
  rw [List.filter_append, kept before early, List.filter_cons_of_neg (by simp), kept after late]

theorem State.today_eq (s : State) : s.today = if s.tariff.daySet ∧ s.tariff.timeSet then s.tariff.day else 0 := by
  unfold State.today Tariff.unset
  cases s.tariff.daySet <;> cases s.tariff.timeSet <;> rfl

theorem issue_next {s : State} (h : s.armed) : exec .issue s = .next (
    if s.port.staging.serial = 0 ∨ s.port.staging.serial = 4294967295#32 ∨ s.port.staging.value = 0 ∨
        50000 < s.port.staging.value.toNat then s.repliedLatched .range 0
    else if (s.lookup s.port.staging.serial).isSome then s.repliedLatched .exists 0
    else if s.engine.locks = 0xFFFF#16 then s.repliedLatched .locked 0
    else match s.issueSlot with
      | none => s.repliedLatched .storeFull 0
      | some x => if s.hasRoom then (s.taken.issueInto x).answerLatched .ok (toWord x.val)
        else s.repliedLatched .queueFull 0) := done_armed h rfl

/-- Settles O33. -/
theorem issueTestsAndIssues : Obligations.IssueTestsAndIssues := by
  intro s h
  refine ⟨fun bad => ?_, fun ok e found => ?_, fun ok absent => ⟨fun locks => ?_, fun locks locked => ?_,
    fun before x after free locked unlocked early late => ?_⟩⟩
  · rw [issue_next h, if_pos bad]
  · rw [issue_next h, if_neg ok, if_pos (by rw [found]; rfl)]
  · rw [issue_next h, if_neg ok, if_neg (by rw [absent]; nofun), if_pos locks]
  · rw [issue_next h, if_neg ok, if_neg (by rw [absent]; nofun), if_neg locks, State.issueSlot_none locked]
  · have locks : s.engine.locks ≠ 0xFFFF#16 := by
      intro all
      have one : ∀ r : Fin 16, (0xFFFF#16).getLsbD r.val = true := by decide
      rw [State.slotLocked, State.regionLocked, all, one] at unlocked
      nomatch unlocked
    have reached : exec .issue s = .next (if s.hasRoom then (s.taken.issueInto x).answerLatched .ok (toWord x.val)
        else s.repliedLatched .queueFull 0) := by
      rw [issue_next h, if_neg ok, if_neg (by rw [absent]; nofun), if_neg locks,
        State.issueSlot_some free locked unlocked]
    have room := State.hasRoom_iff h.1.2
    refine ⟨fun full => ?_, fun fits => ?_⟩
    · rw [reached, if_neg (fun n => absurd (room.1 n) (by omega))]
    · rw [reached, if_pos (room.2 fits), ← filter_ne_split early late, ← free, ← State.today_eq]
      rfl

/-! ### RETIRE and ERASE SLOT (O34) -/

section Found
variable {s : State} {e : DirEntry}

theorem onUnlockedCard_found (found : s.lookup s.port.staging.serial = some e) (unlocked : s.slotLocked e.slot = false)
    (act : DirEntry → State → State) : s.taken.onUnlockedCard act = act e s.taken := by
  have lookup : s.taken.lookup s.taken.port.staging.serial = some e := found
  unfold State.onUnlockedCard
  rw [lookup]
  exact if_neg (by rw [show s.taken.slotLocked e.slot = false from unlocked]; nofun)

theorem onUnlockedCard_locked (found : s.lookup s.port.staging.serial = some e) (locked : s.slotLocked e.slot = true)
    (act : DirEntry → State → State) : s.taken.onUnlockedCard act = s.repliedLatched .locked 0 := by
  have lookup : s.taken.lookup s.taken.port.staging.serial = some e := found
  unfold State.onUnlockedCard
  rw [lookup]
  exact if_pos locked

theorem onUnlockedCard_unknown (absent : s.lookup s.port.staging.serial = none) (act : DirEntry → State → State) :
    s.taken.onUnlockedCard act = s.repliedLatched .unknownCard 0 := by
  have lookup : s.taken.lookup s.taken.port.staging.serial = none := absent
  unfold State.onUnlockedCard
  rw [lookup]
  rfl

end Found

/-- RETIRE of a card in an unlocked region: its further tests (R164). -/
theorem retire_next {s : State} {e : DirEntry} (h : s.armed) (found : s.lookup s.port.staging.serial = some e)
    (unlocked : s.slotLocked e.slot = false) : exec .retire s = .next (
    if s.inUse e then s.repliedLatched .inUse 0
    else if s.hasEntry e.slot then s.repliedLatched .pending 0
    else if s.hasRoom then (s.taken.retireRecord e.slot).answerLatched .ok (toWord e.slot.val)
    else s.repliedLatched .queueFull 0) := done_armed h (onUnlockedCard_found found unlocked _)

theorem eraseSlot_next {s : State} (h : s.armed) : exec .eraseSlot s = .next (
    if s.slotLocked s.port.staging.slot then s.repliedLatched .locked 0
    else if s.hasErase s.port.staging.slot then s.repliedLatched .pending 0
    else if s.slotClass s.port.staging.slot ≠ 1 then s.repliedLatched .badState 0
    else if s.hasRoom then
      (s.taken.joinQueue { work := .eraseSlot, slot := s.port.staging.slot, attempts := 0, origin := .host }).answerLatched
        .ok (toWord s.port.staging.slot.val)
    else s.repliedLatched .queueFull 0) := done_armed h rfl

/-- Settles O34. -/
theorem retireAndEraseSlotQueueAnErase : Obligations.RetireAndEraseSlotQueueAnErase := by
  intro s h
  have fits := State.hasRoom_iff h.1.2
  refine ⟨fun e found => ⟨fun locked => done_armed h (onUnlockedCard_locked found locked _),
    fun unlocked claimed => ?_, fun unlocked free entry => ?_, fun unlocked free entry full => ?_,
    fun unlocked free entry room => ?_⟩, fun locked => ?_, fun unlocked erasing => ?_, fun unlocked idle placed => ?_,
    fun unlocked idle orphan full => ?_, fun unlocked idle orphan room => ?_⟩
  · rw [retire_next h found unlocked, if_pos ((State.inUse_iff e).2 claimed)]
  · rw [retire_next h found unlocked, if_neg (mt (State.inUse_iff e).1 free), if_pos entry]
  · rw [retire_next h found unlocked, if_neg (mt (State.inUse_iff e).1 free), if_neg (by rw [entry]; nofun),
      if_neg (mt fits.1 full)]
  · rw [retire_next h found unlocked, if_neg (mt (State.inUse_iff e).1 free), if_neg (by rw [entry]; nofun),
      if_pos (fits.2 room)]
    rfl
  · rw [eraseSlot_next h, if_pos locked]
  · rw [eraseSlot_next h, if_neg (by rw [unlocked]; nofun), if_pos ((State.hasErase_iff _).2 erasing)]
  · rw [eraseSlot_next h, if_neg (by rw [unlocked]; nofun), if_neg (mt (State.hasErase_iff _).1 idle),
      if_pos (mt (State.slotClass_orphan_iff _).1 placed)]
  · rw [eraseSlot_next h, if_neg (by rw [unlocked]; nofun), if_neg (mt (State.hasErase_iff _).1 idle),
      if_neg (not_not.2 ((State.slotClass_orphan_iff _).2 orphan)), if_neg (mt fits.1 full)]
  · rw [eraseSlot_next h, if_neg (by rw [unlocked]; nofun), if_neg (mt (State.hasErase_iff _).1 idle),
      if_neg (not_not.2 ((State.slotClass_orphan_iff _).2 orphan)), if_pos (fits.2 room)]
    rfl

/-! ### CREDIT, SET EXPIRY, BLOCK and UNBLOCK (O35, O36) -/

/-- The command of a card action; a query's is QUERY CARD. -/
def ActionKind.command : ActionKind → Instr
  | .credit => .credit
  | .setExpiry => .setExpiry
  | .block => .block
  | .unblock => .unblock
  | .queryCard => .queryCard
  | .querySlot => .querySlot

/-- A card action goes through the tests that all share, and CREDIT through its own first. -/
theorem cardAction_next {s : State} (h : s.armed) {kind : ActionKind} (latched : kind.isLatched = true)
    (some : kind = .credit → s.port.staging.value ≠ 0) : exec kind.command s = .next
    (s.taken.onUnlockedCard fun e t => t.fromStepSix kind e .needed) := by
  cases kind with
  | credit => exact done_armed h (if_neg (some rfl))
  | setExpiry => exact done_armed h rfl
  | block => exact done_armed h rfl
  | unblock => exact done_armed h rfl
  | queryCard => nomatch latched
  | querySlot => nomatch latched

/-- A latched action that is answered at once clears the latch (R156). -/
theorem State.taken_answerAction (s : State) {kind : ActionKind} (latched : kind.isLatched = true) (code : ReplyCode)
    (data : Word) : s.taken.answerAction kind code data = s.repliedLatched code data := by
  unfold State.answerAction
  rw [latched]
  rfl

section StepSix
variable {s : State} {e : DirEntry} {kind : ActionKind}

/-- Step 6 passed, where no BLOCK meets a live claim (R158, R159). -/
theorem fromStepSix_passed (free : kind = .credit ∨ kind = .setExpiry → s.inUse e = false)
    (unclaimed : kind = .block → e.claimedBy = none) (r : ActionRead) : s.fromStepSix kind e r =
    if e.condition = .issuing then s.answerAction kind .pending 0
    else match e.live with
      | none => s.answerAction kind .badState 0
      | some (copy, _) =>
        if r = .unreadable then s.answerAction kind .badState 0
        else match s.queuedImage e.slot, r with
          | some i, _ => s.applyAction kind e.slot i
          | none, .image i => s.applyAction kind e.slot i
          | none, _ => s.await
            { kind := kind, serial := e.serial, slot := e.slot, stage := .live none, appeared := false } copy.granule := by
  have through : (if kind = .block then e.claimedBy else none) = none := by
    split
    · next block => exact unclaimed block
    · rfl
  unfold State.fromStepSix
  rw [if_neg (by rintro ⟨claims, used⟩; rw [free claims] at used; nomatch used), through] <;> rfl

theorem fromStepSix_inUse (claims : kind = .credit ∨ kind = .setExpiry) (used : s.inUse e = true) (r : ActionRead) :
    s.fromStepSix kind e r = s.answerAction kind .inUse 0 := if_pos ⟨claims, used⟩

end StepSix

/-- The four card actions of R158, by their commands. -/
theorem exists_kind {c : Instr} (h : c ∈ [Instr.credit, .setExpiry, .block, .unblock]) :
    ∃ kind : ActionKind, kind.isLatched = true ∧ c = kind.command := by
  fin_cases h
  · exact ⟨.credit, rfl, rfl⟩
  · exact ⟨.setExpiry, rfl, rfl⟩
  · exact ⟨.block, rfl, rfl⟩
  · exact ⟨.unblock, rfl, rfl⟩

theorem ActionKind.command_inj {kind other : ActionKind} (h : kind.command = other.command) : kind = other := by
  cases kind <;> cases other <;> first | rfl | nomatch h

/-- Settles O35. -/
theorem cardActionRefusals : Obligations.CardActionRefusals := by
  intro s h
  have run : ∀ {c : Instr}, c ∈ [Instr.credit, .setExpiry, .block, .unblock] →
      (c = .credit → s.port.staging.value ≠ 0) → ∃ kind : ActionKind, kind.isLatched = true ∧ c = kind.command ∧
      exec c s = .next (s.taken.onUnlockedCard fun e t => t.fromStepSix kind e .needed) := by
    intro c mem some
    obtain ⟨kind, latched, rfl⟩ := exists_kind mem
    exact ⟨kind, latched, rfl, cardAction_next h latched fun credit => some (congrArg ActionKind.command credit)⟩
  refine ⟨fun none => done_armed h (if_pos none), fun c mem absent some => ?_, fun e found =>
    ⟨fun locked c mem some => ?_, fun unlocked used c mem some => ?_, fun unlocked c mem some free unclaimed => ?_⟩⟩
  · by_cases retire : c = .retire
    · subst retire
      exact done_armed h (onUnlockedCard_unknown absent _)
    · have four : c ∈ [Instr.credit, .setExpiry, .block, .unblock] := by
        simp only [List.mem_cons, List.not_mem_nil, or_false] at mem ⊢
        tauto
      obtain ⟨kind, -, -, ran⟩ := run four some
      rw [ran, onUnlockedCard_unknown absent]
  · obtain ⟨kind, -, -, ran⟩ := run mem some
    rw [ran, onUnlockedCard_locked found locked]
  · have four : c ∈ [Instr.credit, .setExpiry, .block, .unblock] := by
      simp only [List.mem_cons, List.not_mem_nil, or_false] at mem ⊢
      tauto
    obtain ⟨kind, latched, rfl, ran⟩ := run four some
    have claims : kind = .credit ∨ kind = .setExpiry := by
      simp only [List.mem_cons, List.not_mem_nil, or_false] at mem
      exact mem.imp (ActionKind.command_inj (other := .credit)) (ActionKind.command_inj (other := .setExpiry))
    rw [ran, onUnlockedCard_found found unlocked, fromStepSix_inUse (s := s.taken) claims ((State.inUse_iff e).2 used),
      State.taken_answerAction s latched]
  · obtain ⟨kind, latched, rfl, ran⟩ := run mem some
    have passed := fromStepSix_passed (s := s.taken) (e := e) (kind := kind)
      (fun claims => State.not_inUse (s := s.taken) (free (claims.imp (congrArg ActionKind.command)
        (congrArg ActionKind.command)))) (fun block => unclaimed (congrArg ActionKind.command block)) .needed
    rw [ran, onUnlockedCard_found found unlocked, passed]
    refine ⟨fun issuing => ?_, fun other dead => ?_⟩
    · rw [if_pos issuing, State.taken_answerAction s latched]
    · rw [if_neg other, dead]
      dsimp only
      rw [State.taken_answerAction s latched]

/-- An image with its action's data has joined the queue, has taken the place of the waiting one, or has found no
room (R134 to R136). -/
def State.answersQueued (s : State) (x : Slot) (image : Image) (data : Word) (t : State) : Prop :=
  (s.hasWaitingValue x = true → t = { s with
    engine := { s.engine with waiting := s.engine.waiting.map fun w =>
      if w.isValue = true ∧ w.slot = x then { w with work := .value image, origin := .host } else w }
    port := s.port.answeredLatched .ok data }) ∧
  (s.hasWaitingValue x = false → s.engine.waiting.length + 1 + s.unqueuedClaims + 1 ≤ 96 → t = { s with
    dir := { s.dir with
      claims := s.dir.claims.map fun c => if c.slot = x then { c with appeared := true } else c }
    engine := { s.engine with waiting := s.engine.waiting ++
      [{ work := .value image, slot := x, attempts := 0, origin := .host }] }
    port := s.port.answeredLatched .ok data }) ∧
  (s.hasWaitingValue x = false → 96 < s.engine.waiting.length + 1 + s.unqueuedClaims + 1 →
    t = s.repliedLatched .queueFull 0)

theorem applyAction_queue {s : State} (mode : s.port.mode = .running) {kind : ActionKind} (latched : kind.isLatched = true)
    {i image : Image} {data : Word} (x : Slot) (build : kind.build s.port.staging i = .queue image data) :
    s.answersQueued x image data (s.taken.applyAction kind x i) := by
  have room := State.hasRoom_iff mode
  have applied : s.taken.applyAction kind x i = match s.taken.offerValue x image .host with
      | none => s.taken.answerAction kind .queueFull 0
      | some t => t.answerAction kind .ok data := by
    unfold State.applyAction
    rw [show kind.build s.taken.port.staging i = .queue image data from build] <;> rfl
  have coalesces : s.hasWaitingValue x = true → s.taken.offerValue x image .host =
      some (s.taken.coalesce x image .host) := fun waits => if_pos waits
  have joins : s.hasWaitingValue x = false → s.taken.offerValue x image .host =
      if s.hasRoom then some (s.taken.joinQueue { work := .value image, slot := x, attempts := 0, origin := .host })
      else none := fun none => if_neg (by rw [show s.taken.hasWaitingValue x = false from none]; nofun)
  refine ⟨fun waits => ?_, fun none fits => ?_, fun none full => ?_⟩
  · rw [applied, coalesces waits]
    dsimp only
    unfold State.answerAction
    rw [latched]
    rfl
  · rw [applied, joins none, if_pos (room.2 fits)]
    dsimp only
    unfold State.answerAction
    rw [latched]
    rfl
  · rw [applied, joins none, if_neg (fun n => absurd (room.1 n) (by omega))]
    exact State.taken_answerAction s latched _ _

/-- An action whose newest image is in the queue takes it from there (R31, R159). -/
theorem fromStepSix_queued {s : State} {e : DirEntry} {kind : ActionKind} {i : Image} {r : ActionRead}
    (free : kind = .credit ∨ kind = .setExpiry → s.inUse e = false) (unclaimed : kind = .block → e.claimedBy = none)
    (indexed : e.condition ≠ .issuing) (live : e.live ≠ none) (readable : r ≠ .unreadable)
    (queued : s.queuedImage e.slot = some i) : s.fromStepSix kind e r = s.applyAction kind e.slot i := by
  obtain ⟨⟨copy, g⟩, there⟩ := Option.ne_none_iff_exists'.1 live
  rw [fromStepSix_passed free unclaimed, if_neg indexed, there]
  dsimp only
  rw [if_neg readable, queued]

theorem applyAction_answer {s : State} {kind : ActionKind} (latched : kind.isLatched = true) {i : Image} {code : ReplyCode}
    {data : Word} (x : Slot) (build : kind.build s.port.staging i = .answer code data) :
    s.taken.applyAction kind x i = s.repliedLatched code data := by
  unfold State.applyAction
  rw [show kind.build s.taken.port.staging i = .answer code data from build]
  exact State.taken_answerAction s latched _ _

/-- Settles O36. -/
theorem cardActionsBuildOnTheNewestImage : Obligations.CardActionsBuildOnTheNewestImage := by
  intro s e i h found unlocked indexed live queued
  have run : ∀ kind : ActionKind, kind.isLatched = true → (kind = .credit → s.port.staging.value ≠ 0) →
      (kind = .credit ∨ kind = .setExpiry → e.claimedBy = none ∧ ∀ c ∈ s.dir.claims, c.serial ≠ e.serial) →
      (kind = .block → e.claimedBy = none) →
      exec kind.command s = .next (s.taken.applyAction kind e.slot i) := by
    intro kind latched some free unclaimed
    rw [cardAction_next h latched some, onUnlockedCard_found found unlocked,
      fromStepSix_queued (s := s.taken) (fun claims => State.not_inUse (free claims)) unclaimed indexed live
        (show ActionRead.needed ≠ .unreadable by decide) queued]
  have credit := fun free some => run .credit rfl (fun _ => some) (fun _ => free) nofun
  have block := fun unclaimed => run .block rfl nofun nofun fun _ => unclaimed
  have unblock := run .unblock rfl nofun (by rintro (n | n) <;> nomatch n) nofun
  have offers : ∀ {c : Instr} {kind : ActionKind}, kind.isLatched = true → ∀ {image : Image} {data : Word},
      exec c s = .next (s.taken.applyAction kind e.slot i) → kind.build s.port.staging i = .queue image data →
      (s.hasWaitingValue e.slot = true → exec c s = .next { s with
        engine := { s.engine with waiting := s.engine.waiting.map fun w =>
          if w.isValue = true ∧ w.slot = e.slot then { w with work := .value image, origin := .host } else w }
        port := s.port.answeredLatched .ok data }) ∧
      (s.hasWaitingValue e.slot = false → s.engine.waiting.length + 1 + s.unqueuedClaims + 1 ≤ 96 →
        exec c s = .next { s with
          dir := { s.dir with
            claims := s.dir.claims.map fun c => if c.slot = e.slot then { c with appeared := true } else c }
          engine := { s.engine with waiting := s.engine.waiting ++
            [{ work := .value image, slot := e.slot, attempts := 0, origin := .host }] }
          port := s.port.answeredLatched .ok data }) ∧
      (s.hasWaitingValue e.slot = false → 96 < s.engine.waiting.length + 1 + s.unqueuedClaims + 1 →
        exec c s = .next (s.repliedLatched .queueFull 0)) := by
    intro c kind latched image data ran build
    obtain ⟨coalesced, joined, full⟩ := applyAction_queue h.1.2 latched e.slot build
    exact ⟨fun a => ran.trans (congrArg _ (coalesced a)), fun a b => ran.trans (congrArg _ (joined a b)),
      fun a b => ran.trans (congrArg _ (full a b))⟩
  refine ⟨fun free some above => ?_, fun free some below => offers rfl (credit free some) (if_neg (not_lt.2 below)),
    fun free => offers rfl (run .setExpiry rfl nofun (fun _ => free) nofun) rfl, fun unclaimed blocked => ?_,
    fun unclaimed other => offers rfl (block unclaimed) (if_neg other), fun other => ?_, fun blocked empty => ?_,
    fun blocked some unused => ?_, fun blocked some used => ?_⟩
  · exact (credit free some).trans (congrArg _ (applyAction_answer rfl e.slot (if_pos above)))
  · exact (block unclaimed).trans (congrArg _ (applyAction_answer rfl e.slot (if_pos blocked)))
  · exact unblock.trans (congrArg _ (applyAction_answer rfl e.slot (if_neg other)))
  all_goals
    refine offers rfl unblock ((if_pos blocked).trans ?_)
    unfold Image.unblocked
  · rw [if_pos empty]
    rfl
  · rw [if_neg some, if_pos unused]
    rfl
  · rw [if_neg some, if_neg used]
    rfl

end Sys2Proof.Machine
end

section
/-!
PROOFS. The array by its records; what granules read, and the start of an entry (O41, O48).
-/

namespace Sys2Proof.Machine

/-! ### The array is known by its records -/

theorem recordAt_of_mem {st : List (Slot × Record)} (h : storeWf st = true) {x : Slot} {r : Record} (mem : (x, r) ∈ st) :
    recordAt st x = r := by
  obtain ⟨rising, -⟩ := (storeWf_iff st).1 h
  clear h
  induction st with
  | nil => nomatch mem
  | cons e rest ih =>
    obtain ⟨k, v⟩ := e
    obtain ⟨above, rising⟩ := List.pairwise_cons.1 rising
    unfold recordAt
    obtain same | later := List.mem_cons.1 mem
    · cases same
      exact if_pos rfl
    · rw [if_neg (above _ later).ne]
      exact ih later rising

theorem mem_of_recordAt {st : List (Slot × Record)} {x : Slot} (h : recordAt st x ≠ blankRecord) :
    (x, recordAt st x) ∈ st := by
  induction st with
  | nil => exact absurd rfl h
  | cons e rest ih =>
    obtain ⟨k, v⟩ := e
    unfold recordAt at h ⊢
    split
    · next same => subst same; exact List.mem_cons_self
    · next other =>
      rw [if_neg other] at h
      exact List.mem_cons_of_mem _ (ih h)

/-- Two arrays in canonical form with the same records are one. -/
theorem store_ext {st st' : List (Slot × Record)} (h : storeWf st = true) (h' : storeWf st' = true)
    (same : ∀ x, recordAt st x = recordAt st' x) : st = st' := by
  have subset : ∀ {a b : List (Slot × Record)}, storeWf a = true → (∀ x, recordAt a x = recordAt b x) →
      ∀ e ∈ a, e ∈ b := by
    intro a b wf equal e mem
    obtain ⟨x, r⟩ := e
    have found := recordAt_of_mem wf mem
    have some : recordAt b x ≠ blankRecord := by
      rw [← equal, found]
      exact ((storeWf_iff a).1 wf).2 _ mem
    have there := mem_of_recordAt some
    rwa [← equal, found] at there
  obtain ⟨rising, -⟩ := (storeWf_iff st).1 h
  obtain ⟨rising', -⟩ := (storeWf_iff st').1 h'
  have once : ∀ {l : List (Slot × Record)}, l.Pairwise (fun a b => a.1 < b.1) → l.Nodup := fun p =>
    p.imp fun lt eq => absurd (congrArg Prod.fst eq) lt.ne
  have perm : st.Perm st' := (List.perm_ext_iff_of_nodup (once rising) (once rising')).2 fun e =>
    ⟨subset h same e, subset h' (fun x => (same x).symm) e⟩
  exact perm.eq_of_pairwise (fun a b _ _ lt gt => absurd lt gt.not_gt) rising rising'

theorem putRecord_same {st : List (Slot × Record)} (h : storeWf st = true) (x : Slot) :
    putRecord st x (recordAt st x) = st := by
  refine store_ext (storeWf_putRecord _ _ _ h) h fun y => ?_
  rw [recordAt_putRecord _ _ _ _ h]
  split
  · next e => rw [e]
  · rfl

theorem putRecord_comm {st : List (Slot × Record)} (h : storeWf st = true) {x y : Slot} (apart : x ≠ y) (r q : Record) :
    putRecord (putRecord st x r) y q = putRecord (putRecord st y q) x r := by
  have left := storeWf_putRecord _ x r h
  have right := storeWf_putRecord _ y q h
  refine store_ext (storeWf_putRecord _ _ _ left) (storeWf_putRecord _ _ _ right) fun z => ?_
  rw [recordAt_putRecord _ _ _ _ left, recordAt_putRecord _ _ _ _ right, recordAt_putRecord _ _ _ _ h,
    recordAt_putRecord _ _ _ _ h]
  by_cases e : y = z
  · rw [if_pos e, if_neg (fun n => apart (n.trans e.symm)), if_pos e]
  · rw [if_neg e, if_neg e]

theorem State.onRecord_comm {s : State} (h : storeWf s.store = true) {x y : Slot} (apart : x ≠ y) (f g : Record → Record) :
    (s.onRecord x f).onRecord y g = (s.onRecord y g).onRecord x f := by
  unfold State.onRecord State.onStore
  dsimp only
  rw [recordAt_putRecord _ _ _ _ h, recordAt_putRecord _ _ _ _ h, if_neg apart, if_neg apart.symm, putRecord_comm h apart]

theorem State.onRecord_same {s : State} (h : storeWf s.store = true) (x : Slot) {f : Record → Record}
    (same : f (s.record x) = s.record x) : s.onRecord x f = s := by
  show { s with store := putRecord s.store x (f (recordAt s.store x)) } = s
  rw [show f (recordAt s.store x) = recordAt s.store x from same, putRecord_same h]

/-! ### Field checks (O41) -/

theorem stateOfCode_none : ∀ c : BitVec 3, stateOfCode c = none ↔ 3 < c.toNat := by decide

theorem lastPositionOfCode_none : ∀ c : BitVec 6, lastPositionOfCode c = none ↔ 48 < c.toNat := by decide

theorem classOfCode_none : ∀ c : BitVec 2, classOfCode c = none ↔ c = 3 := by decide

theorem RawValue.check_none (r : RawValue) :
    RawValue.check r = none ↔ 3 < r.stateCode.toNat ∨ 50000 < r.balance.toNat ∨ 48 < r.lastPosition.toNat := by
  rw [← stateOfCode_none, ← lastPositionOfCode_none]
  unfold RawValue.check
  cases stateOfCode r.stateCode with
  | none => simp
  | some st =>
    cases lastPositionOfCode r.lastPosition with
    | none => simp
    | some last => simp

theorem RawIdentity.check_none (r : RawIdentity) : RawIdentity.check r = none ↔
    r.serial = 0 ∨ r.serial = 4294967295#32 ∨ r.classCode = 3 ∨ r.faceValue = 0 ∨ 50000 < r.faceValue.toNat := by
  rw [← classOfCode_none]
  unfold RawIdentity.check
  cases classOfCode r.classCode with
  | none => simp
  | some cls => simp only [ite_eq_left_iff, reduceCtorEq, imp_false, not_not, false_or]

/-- Contents read valid just where they pass the field checks, and corrected where a cell is in error too. -/
theorem Granule.read_cells {α β : Type} (check : α → Option β) (x : α) (inError : Bool) :
    ((Granule.cells x inError).read check).valid = check x ∧
    (((Granule.cells x inError).read check).isCorrected = true ↔
      inError = true ∧ ((Granule.cells x inError).read check).valid ≠ none) := by
  cases checked : check x with
  | none => simp [Granule.read, checked, ReadOutcome.isCorrected, ReadOutcome.valid]
  | some y => cases inError <;> simp [Granule.read, checked, ReadOutcome.isCorrected, ReadOutcome.valid]

/-- An identity granule programmed with an identity within its ranges reads as that identity (R2, R4). -/
theorem readIdentity_raw (i : Identity) (first : i.serial ≠ 0) (last : i.serial ≠ 4294967295#32) (low : 1 ≤ i.faceValue)
    (high : i.faceValue ≤ 50000) : readIdentity (.cells i.raw false) = .good i := by
  have face : (BitVec.ofNat 16 i.faceValue).toNat = i.faceValue := by
    rw [BitVec.toNat_ofNat]
    exact Nat.mod_eq_of_lt (by omega)
  have some : BitVec.ofNat 16 i.faceValue ≠ 0 := by
    intro n
    have := congrArg BitVec.toNat n
    rw [face] at this
    exact absurd this (by show i.faceValue ≠ 0; omega)
  have inside : ¬Config.maxBalance < i.faceValue := not_lt.2 high
  simp only [readIdentity, Granule.read, RawIdentity.check, Identity.raw, classOfCode_code, face, first, last, some, inside,
    or_self, if_false]
  rfl

/-- Which copy is live, by the generations (R8). -/
theorem liveOf_generations (i j : Image) (a b : Gen) :
    ((b - a).toNat ∈ Set.Icc 1 127 → liveOf (some (i, a)) (some (j, b)) = some (.b, j, b)) ∧
    ((b - a).toNat ∉ Set.Icc 1 127 → liveOf (some (i, a)) (some (j, b)) = some (.a, i, a)) := by
  have newest : newer b a = true ↔ (b - a).toNat ∈ Set.Icc 1 127 := by
    unfold newer
    rw [Bool.and_eq_true_iff, decide_eq_true_iff, decide_eq_true_iff, Set.mem_Icc]
  exact ⟨fun h => if_pos (newest.2 h), fun h => if_neg (mt newest.1 h)⟩

/-! ### Cells that fail before a read -/

/-- What failing cells make of a granule, with `left` for the part of the operand that three and more leave (R1). -/
theorem Granule.after_cases {α : Type} (old : Granule α) (change : CellChange) (left : Record → Granule α) :
    (change = .asHeld → old.after change left = old) ∧
    (change = .oneCellFails → (∀ x, old = .cells x false → old.after change left = .cells x true) ∧
      ((∀ x, old ≠ .cells x false) → old.after change left = .damaged)) ∧
    (change = .twoCellsFail → old.after change left = .damaged) ∧
    ∀ operand, change = .manyCellsFail operand → old.after change left = left operand := by
  refine ⟨?_, ?_, ?_, ?_⟩
  · rintro rfl
    rfl
  · rintro rfl
    refine ⟨?_, fun other => ?_⟩
    · rintro x rfl
      rfl
    · cases old with
      | blank => rfl
      | damaged => rfl
      | cells x inError =>
        cases inError with
        | false => exact absurd rfl (other x)
        | true => rfl
  · rintro rfl
    rfl
  · rintro operand rfl
    rfl

theorem Record.after_asHeld (r : Record) (g : GranuleName) : r.after g .asHeld = r := by cases g <;> rfl

/-- The step in flight is found where it stands whatever has befallen another slot's cells. -/
theorem State.suspend_onRecord {s : State} (h : storeWf s.store = true) {x : Slot} (f : Record → Record)
    (away : ∀ g ∈ s.engine.flight, g.entry.slot ≠ x) : (s.onRecord x f).suspend = s.suspend.onRecord x f := by
  unfold State.suspend
  by_cases rests : s.engine.flight.isNone = true ∨ s.engine.suspended = true
  · rw [if_pos rests]
    exact if_pos rests
  · rw [if_neg rests]
    refine (if_neg rests).trans ?_
    obtain ⟨g, flight⟩ := Option.isSome_iff_exists.1 (Option.isSome_iff_ne_none.2 fun n => rests (.inl (Option.isNone_iff_eq_none.2 n)))
    have stands : (s.onRecord x f).standAt (Config.stepProgress s.moments) =
        (s.standAt (Config.stepProgress s.moments)).onRecord x f := by
      unfold State.standAt
      rw [show (s.onRecord x f).engine.flight = s.engine.flight from rfl, flight]
      dsimp only
      split
      · rfl
      · exact congrArg (State.onEngine _) (State.onRecord_comm h (Ne.symm (away g flight)) f _)
    show ({ ((s.onRecord x f).standAt (Config.stepProgress s.moments)).onEngine _ with moments := _ } : State) = _
    rw [stands]
    rfl

/-- The rebuild asks for its read whatever has befallen the cells that it reads. -/
theorem State.rebuildAsks_onRecord {s : State} (h : storeWf s.store = true) {x : Slot} (f : Record → Record)
    (away : s.engine.reading = none → ∀ g ∈ s.engine.flight, g.entry.slot ≠ x) :
    (s.onRecord x f).rebuildAsks = s.rebuildAsks.onRecord x f := by
  unfold State.rebuildAsks
  rw [show (s.onRecord x f).dir.rebuild = s.dir.rebuild from rfl, show (s.onRecord x f).engine.reading = s.engine.reading from rfl]
  split
  · split
    · rfl
    · next idle =>
      have none : s.engine.reading = none := Option.not_isSome_iff_eq_none.1 idle
      unfold State.requestRead
      rw [if_neg idle, if_neg (show ¬(s.onRecord x f).engine.reading.isSome = true from idle),
        suspend_onRecord h f (away none)]
      rfl
  · rfl

/-- The read that a completion completes, once the rebuild has asked for its own (log 31). -/
theorem State.reading_of_asks {s : State} {r : ReadRequest} (h : s.engine.reading = some r ∨
    (s.engine.reading = none ∧ s.dir.rebuild.map Rebuild.request = some r)) : s.rebuildAsks.engine.reading = some r := by
  unfold State.rebuildAsks
  obtain reading | ⟨idle, rebuild⟩ := h
  · split
    · rw [reading]
      exact reading
    · exact reading
  · obtain ⟨b, there, rfl⟩ := Option.map_eq_some_iff.1 rebuild
    rw [there]
    dsimp only
    rw [if_neg (by rw [idle]; nofun), State.requestRead, if_neg (by rw [idle]; nofun)]
    rfl

theorem State.storeWf_rebuildAsks {s : State} (h : storeWf s.store = true) : storeWf s.rebuildAsks.store = true :=
  (Keeps.rebuildAsks (cleared := True) s).store h

theorem readComplete_next {s : State} {r : ReadRequest} {change : CellChange} (h : s.pins.released = true)
    (reading : s.rebuildAsks.engine.reading = some r) : exec (.storeReadComplete change) s = .next
      (((s.rebuildAsks.onRecord r.slot fun x => x.after r.granule change).deliverRead r).serveNext) := by
  refine done_event h ?_
  unfold State.readComplete
  dsimp only
  rw [reading]

/-- A read completes as it would of the array with the cells that have failed before it (log 10). -/
theorem readComplete_asHeld {s : State} {r : ReadRequest} (change : CellChange) (h : s.pins.released = true)
    (wf : storeWf s.store = true) (reads : s.engine.reading = some r ∨ (s.engine.reading = none ∧
      s.dir.rebuild.map Rebuild.request = some r ∧ ∀ f ∈ s.engine.flight, f.entry.slot ≠ r.slot)) :
    exec (.storeReadComplete change) s =
      exec (.storeReadComplete .asHeld) (s.onRecord r.slot fun x => x.after r.granule change) := by
  have reading := State.reading_of_asks (reads.imp_right fun h => ⟨h.1, h.2.1⟩)
  have asks := State.rebuildAsks_onRecord wf (x := r.slot) (fun x => x.after r.granule change) fun idle => by
    obtain busy | ⟨-, -, away⟩ := reads
    · rw [idle] at busy
      nomatch busy
    · exact away
  have held := State.onRecord_same (s := (s.onRecord r.slot fun x => x.after r.granule change).rebuildAsks)
    (State.storeWf_rebuildAsks (State.storeWf_onRecord _ _ _ wf)) r.slot (f := fun x => x.after r.granule .asHeld)
    (Record.after_asHeld _ _)
  rw [readComplete_next h reading, readComplete_next (s := s.onRecord r.slot _) h (r := r) (by rw [asks]; exact reading),
    held, asks]

/-- Settles O41. -/
theorem granulesReadAndTheLiveCopy : Obligations.GranulesReadAndTheLiveCopy := by
  refine ⟨⟨rfl, rfl, rfl, rfl⟩, fun r inError => ?_, fun r inError => ?_, fun i g low => readValue_raw i g low,
    readIdentity_raw, fun s r change h wf reads => ?_, fun i j a b => ?_⟩
  · obtain ⟨valid, corrected⟩ := Granule.read_cells RawValue.check r inError
    exact ⟨(congrArg (· = none) valid).to_iff.trans (RawValue.check_none r), corrected⟩
  · exact (congrArg (· = none) (Granule.read_cells RawIdentity.check r inError).1).to_iff.trans (RawIdentity.check_none r)
  · have others := State.record_onRecord r.slot (s := s) (f := fun x => x.after r.granule change) (h := wf)
    refine ⟨s.onRecord r.slot fun x => x.after r.granule change, readComplete_asHeld change h wf reads, rfl,
      State.storeWf_onRecord _ _ _ wf, fun y away => (others y).trans (if_neg (Ne.symm away)), ?_⟩
    rw [(others r.slot).trans (if_pos rfl)]
    refine ⟨fun at' => ?_, fun at' => ?_, fun at' => ?_⟩
    all_goals
      rw [at']
      exact ⟨Granule.after_cases _ _ _, rfl, rfl⟩
  · obtain ⟨newest, older⟩ := liveOf_generations i j a b
    exact ⟨newest, older, rfl, rfl, rfl⟩

/-! ### The start of an entry (O48) -/

/-- An entry starts at the erase of the first granule of its step. -/
theorem starts_spec {s : State} (wf : storeWf s.store = true) {e : QueueEntry} {rest : List QueueEntry}
    (head : s.engine.waiting = e :: rest) (step : FlightStep) : s.start e step = { s with
      store := (s.start e step).store
      engine := { s.engine with
        waiting := rest, flight := some { entry := e, step := step, progress := step.first } } } ∧
    storeWf (s.start e step).store = true ∧
    (s.start e step).record e.slot = step.cells step.first (s.record e.slot) ∧
    ∀ y, y ≠ e.slot → (s.start e step).record y = s.record y := by
  have record : ∀ y, (s.start e step).record y = if e.slot = y then step.cells step.first (s.record e.slot) else s.record y :=
    fun y => State.record_onRecord e.slot y _ (s.onEngine fun g => { g with waiting := g.waiting.drop 1 }) wf
  refine ⟨?_, State.storeWf_onRecord _ _ (s.onEngine _) wf, (record _).trans (if_pos rfl), fun y away =>
    (record y).trans (if_neg (Ne.symm away))⟩
  have tail : s.engine.waiting.drop 1 = rest := by rw [head]; rfl
  rw [← tail]
  rfl

theorem entryStart_head {s : State} (idle : s.engine.reading = none ∧ s.engine.readList = [] ∧ s.engine.flight = none)
    {e : QueueEntry} {rest : List QueueEntry} (head : s.engine.waiting = e :: rest) : s.entryStart = (match e.work with
      | .value _ =>
        match (s.bySlot e.slot).bind DirEntry.live with
        | some (c, g) => s.start e (.writeValue c.other (g + 1))
        | none => s
      | .issue _ _ => s.start e .issueErase
      | .retire | .eraseSlot => s.start e .erase) := by
  obtain ⟨reading, list, flight⟩ := idle
  unfold State.entryStart
  rw [reading, list, flight, head]
  rfl

/-- Settles O48. -/
theorem entriesStartFromTheHead : Obligations.EntriesStartFromTheHead := by
  intro s h wf
  refine ⟨fun busy => done_event h ?_, fun e rest reading list flight head => ?_⟩
  · unfold State.entryStart
    split
    · rfl
    · next idle =>
      push Not at idle
      obtain reading | list | flight | empty := busy
      · exact absurd (Option.not_isSome_iff_eq_none.1 idle.1) reading
      · exact absurd idle.2.1 list
      · exact absurd (Option.not_isSome_iff_eq_none.1 idle.2.2) flight
      · rw [empty]
  · have starts := entryStart_head ⟨reading, list, flight⟩ head
    refine ⟨fun i d g work slot live => ?_, fun i d g work slot live => ?_, fun identity i work => ?_, fun erases => ?_⟩
    · obtain ⟨eq, form, here, others⟩ := starts_spec wf head (.writeValue .b (g + 1))
      refine ⟨_, done_event h ?_, eq, form, here, others⟩
      rw [starts, work, slot, Option.bind_some, live]
      rfl
    · obtain ⟨eq, form, here, others⟩ := starts_spec wf head (.writeValue .a (g + 1))
      refine ⟨_, done_event h ?_, eq, form, here, others⟩
      rw [starts, work, slot, Option.bind_some, live]
      rfl
    · obtain ⟨eq, form, here, others⟩ := starts_spec wf head .issueErase
      refine ⟨_, done_event h ?_, eq, form, here, others⟩
      rw [starts, work]
    · obtain ⟨eq, form, here, others⟩ := starts_spec wf head .erase
      refine ⟨_, done_event h ?_, eq, form, here, others⟩
      rw [starts]
      obtain work | work := erases <;> rw [work]

end Sys2Proof.Machine
end

section
/-!
PROOFS. Actions that wait, queries, the tests of a claim, and the state after reset (O38, O39, O46, O55).
-/

namespace Sys2Proof.Machine

/-! ### The suspension of a step (O38) -/

theorem State.suspend_resting {s : State} (h : s.engine.flight = none ∨ s.engine.suspended = true) : s.suspend = s :=
  if_pos (h.imp_left Option.isNone_iff_eq_none.2)

/-- Where a read finds a running step: never earlier than it was known to have come. -/
def State.standing (s : State) (f : Flight) : Progress := f.step.reached f.progress (Config.stepProgress s.moments)

/-- What is found in the cells of a running step's slot. -/
def State.foundStanding (s : State) (f : Flight) : State :=
  if s.standing f = f.progress then s else s.onRecord f.entry.slot (f.step.cells (s.standing f))

theorem State.suspend_running {s : State} {f : Flight} (flight : s.engine.flight = some f)
    (runs : s.engine.suspended = false) : s.suspend = { s with
      store := (s.foundStanding f).store, moments := s.moments + 1
      engine := { s.engine with suspended := true, flight := some { f with progress := s.standing f } } } := by
  have going : ¬(s.engine.flight.isNone = true ∨ s.engine.suspended = true) := by rw [flight, runs]; simp
  have stands : s.standAt (Config.stepProgress s.moments) = { s with
      store := (s.foundStanding f).store
      engine := { s.engine with flight := some { f with progress := s.standing f } } } := by
    unfold State.standAt State.foundStanding
    rw [flight]
    show (if s.standing f = f.progress then s else _) = _
    split
    · next same =>
      rw [same]
      exact congrArg (fun o => { s with engine := { s.engine with flight := o } }) flight
    · rfl
  unfold State.suspend
  rw [if_neg going, stands]
  rfl

theorem FlightStep.place_le_reached (step : FlightStep) (known p : Progress) : known.place ≤ (step.reached known p).place := by
  unfold FlightStep.reached
  split
  · next later => exact later.le
  · exact le_rfl

/-- A VALUE write touches its target only. -/
theorem writeValue_cells (copy : Copy) (g : Gen) (p : Progress) (old : Record) :
    ((FlightStep.writeValue copy g).cells p old).identity = old.identity ∧
    ((FlightStep.writeValue copy g).cells p old).copy copy.other = old.copy copy.other ∧
    (p = .erased copy.granule → ((FlightStep.writeValue copy g).cells p old).copy copy = .blank) ∧
    (p = .programming → ((FlightStep.writeValue copy g).cells p old).copy copy = .damaged) ∧
    ∀ left, p = .verifying left → ((FlightStep.writeValue copy g).cells p old).copy copy = left.copy copy := by
  refine ⟨?_, ?_, ?_, ?_, ?_⟩
  · cases copy <;> cases p <;> rfl
  · cases copy <;> cases p <;> rfl
  · rintro rfl
    cases copy <;> rfl
  · rintro rfl
    cases copy <;> rfl
  · rintro left rfl
    cases copy <;> rfl

/-- The erase of a slot goes through its granules in their order. -/
theorem erase_cells {step : FlightStep} (erases : step.target = none) (p : Progress) (old : Record) :
    (p = .erased .identity → step.cells p old = { old with identity := .blank }) ∧
    (p = .erasing .copyA → step.cells p old = { old with identity := .blank, copyA := .damaged }) ∧
    (p = .erased .copyA → step.cells p old = { old with identity := .blank, copyA := .blank }) ∧
    (p = .erasing .copyB → step.cells p old = { identity := .blank, copyA := .blank, copyB := .damaged }) ∧
    (p = .erased .copyB → step.cells p old = { identity := .blank, copyA := .blank, copyB := .blank }) ∧
    ∀ left, p = .verifying left → step.cells p old = left := by
  unfold FlightStep.cells
  rw [erases]
  refine ⟨?_, ?_, ?_, ?_, ?_, fun left => ?_⟩
  all_goals
    rintro rfl
    rfl

/-! ### Waiting for a read -/

theorem State.suspend_withPort (s : State) (p : Port) : ({ s with port := p } : State).suspend = { s.suspend with port := p } := by
  by_cases rests : s.engine.flight = none ∨ s.engine.suspended = true
  · rw [suspend_resting rests, suspend_resting (s := { s with port := p }) rests]
  · obtain ⟨f, flight⟩ := Option.ne_none_iff_exists'.1 fun n => rests (.inl n)
    have runs : s.engine.suspended = false := Bool.eq_false_iff.2 fun b => rests (.inr b)
    have found : (({ s with port := p } : State).foundStanding f).store = (s.foundStanding f).store := by
      unfold State.foundStanding
      rw [apply_ite State.store, apply_ite State.store]
      rfl
    rw [suspend_running (s := { s with port := p }) flight runs, suspend_running flight runs, found]
    rfl

/-- The part once an action waits for a granule of its record (R130, R131, R151). -/
def State.waits (s : State) (a : HostAction) (granule : GranuleName) : State :=
  let request : ReadRequest := { who := .host, slot := a.slot, granule := granule }
  let u := if s.engine.reading.isSome then s else s.suspend
  { u with
    engine :=
      if s.engine.reading.isSome then { s.engine with readList := s.engine.readList ++ [request] }
      else { u.engine with reading := some request }
    port := { s.port with
      transfer := none, ownerMark := true, reply := { code := .noReply, data := 1 }, result := .working a } }

theorem State.taken_await (s : State) (a : HostAction) (granule : GranuleName) :
    s.taken.await a granule = s.waits a granule := by
  show ({ s with
    port := { s.port with
      transfer := none
      ownerMark := true
      reply := { code := .noReply, data := 1 }
      result := .working a } } : State).requestRead _ = _
  unfold State.requestRead State.waits
  dsimp only
  by_cases busy : s.engine.reading.isSome = true
  · rw [if_pos busy, if_pos busy, if_pos busy]
    rfl
  · rw [if_neg busy, if_neg busy, if_neg busy, State.suspend_withPort]
    rfl

/-- An action whose newest image must be read waits for the live copy. -/
theorem fromStepSix_reads {s : State} {e : DirEntry} {kind : ActionKind}
    (free : kind = .credit ∨ kind = .setExpiry → s.inUse e = false) (unclaimed : kind = .block → e.claimedBy = none)
    (indexed : e.condition ≠ .issuing) {copy : Copy} {g : Gen} (live : e.live = some (copy, g))
    (queued : s.queuedImage e.slot = none) : s.fromStepSix kind e .needed =
      s.await { kind := kind, serial := e.serial, slot := e.slot, stage := .live none, appeared := false } copy.granule := by
  rw [fromStepSix_passed free unclaimed, if_neg indexed, live]
  dsimp only
  rw [if_neg (show ActionRead.needed ≠ .unreadable by decide), queued]

/-- Settles O38. -/
theorem actionsWaitForTheStore : Obligations.ActionsWaitForTheStore := by
  refine ⟨fun s e => ⟨fun h found unlocked indexed queued copy g live => ?_, fun h indexed => ⟨fun found =>
    done_running h ?_, fun found => done_running h ?_⟩⟩, fun s => State.suspend_resting, fun s f wf sound flight runs => ?_⟩
  · have run : ∀ kind : ActionKind, kind.isLatched = true → (kind = .credit → s.port.staging.value ≠ 0) →
        (kind = .credit ∨ kind = .setExpiry → e.claimedBy = none ∧ ∀ c ∈ s.dir.claims, c.serial ≠ e.serial) →
        (kind = .block → e.claimedBy = none) → exec kind.command s = .next (s.waits
          { kind := kind, serial := e.serial, slot := e.slot, stage := .live none, appeared := false } copy.granule) := by
      intro kind latched some free unclaimed
      rw [cardAction_next h latched some, onUnlockedCard_found found unlocked, fromStepSix_reads (s := s.taken)
        (fun claims => State.not_inUse (free claims)) unclaimed indexed live queued, State.taken_await]
    exact ⟨fun free some => run .credit rfl (fun _ => some) (fun _ => free) nofun,
      fun free => run .setExpiry rfl nofun (fun _ => free) nofun,
      fun unclaimed => run .block rfl nofun nofun fun _ => unclaimed, run .unblock rfl nofun nofun nofun⟩
  · have lookup : s.taken.lookup s.taken.port.staging.serial = some e := found
    rw [lookup]
    exact (if_neg indexed).trans (State.taken_await _ _ _)
  · have lookup : s.taken.bySlot s.taken.port.staging.slot = some e := found
    dsimp only
    rw [lookup]
    exact (if_neg indexed).trans (State.taken_await _ _ _)
  · have suspended := State.suspend_running flight runs
    have store : s.suspend.store = (s.foundStanding f).store := by rw [suspended]
    have moved : s.standing f ≠ f.progress → ∀ y, s.suspend.record y =
        if f.entry.slot = y then f.step.cells (s.standing f) (s.record f.entry.slot) else s.record y := by
      intro later y
      rw [State.record, store, State.foundStanding, if_neg later]
      exact State.record_onRecord _ _ _ _ wf
    refine ⟨s.standing f, ?_, FlightStep.place_le_reached _ _ _, fun same => ?_, fun y away => ?_, fun later => ?_⟩
    · rw [store]
      exact suspended
    · rw [store, State.foundStanding, if_pos same]
    · by_cases same : s.standing f = f.progress
      · rw [State.record, store, State.foundStanding, if_pos same]
        rfl
      · rw [moved same, if_neg (Ne.symm away)]
    · rw [moved later, if_pos rfl]
      refine ⟨fun copy g write => ?_, fun erases => ?_⟩
      · rw [write]
        exact writeValue_cells _ _ _ _
      · refine erase_cells ?_ _ _
        obtain e | e := erases <;> rw [e] <;> rfl

/-! ### Queries (O39) -/

theorem slotWord_eq (cls : BitVec 2) (x : Slot) : slotWord cls x = BitVec.ofNat 16 (16384 * cls.toNat + x.val) := by
  have below := x.isLt
  have code := cls.isLt
  apply BitVec.eq_of_toNat_eq
  have inner : (cls ++ 0#1).toNat = 2 * cls.toNat := by
    rw [BitVec.toNat_append, Nat.shiftLeft_eq]
    show cls.toNat * 2 ||| 0 = _
    rw [Nat.or_zero, Nat.mul_comm]
  have outer : (slotWord cls x).toNat = (cls ++ 0#1).toNat <<< 13 ||| (BitVec.ofNat 13 x.val).toNat :=
    BitVec.toNat_append _ _
  rw [outer, inner, BitVec.toNat_ofNat, BitVec.toNat_ofNat, Nat.mod_eq_of_lt below,
    ← Nat.shiftLeft_add_eq_or_of_lt below, Nat.shiftLeft_eq]
  omega

theorem State.slotClass_indexed {s : State} {x : Slot} {e : DirEntry} (h : s.bySlot x = some e) : s.slotClass x = 2 :=
  if_pos (by rw [h]; rfl)

theorem State.slotClass_free {s : State} {x : Slot} (h : s.bySlot x = none) (free : x ∈ s.dir.free) : s.slotClass x = 0 := by
  unfold State.slotClass
  rw [h]
  exact if_pos (List.contains_iff_mem.2 free)

theorem State.slotClass_orphan {s : State} {x : Slot} (h : s.bySlot x = none) (placed : x ∉ s.dir.free) :
    s.slotClass x = 1 := by
  unfold State.slotClass
  rw [h]
  exact if_neg fun n => placed (List.contains_iff_mem.1 n)

/-- A query that is answered at once: its words are in the readout buffer. -/
def State.loaded (s : State) (words : List Word) (data : Word) : State :=
  { s with port := { s.port.answered .ok data with buffer := words, pointer := 0 } }

theorem querySlot_unindexed {s : State} (h : s.serves) (absent : s.bySlot s.port.staging.slot = none) :
    exec .querySlot s = .next (s.loaded
      [slotWord (s.slotClass s.port.staging.slot) s.port.staging.slot]
      (0#6 ++ s.slotClass s.port.staging.slot ++ 0#2 ++ 1#6)) := by
  refine done_running h ?_
  have none : s.taken.bySlot s.taken.port.staging.slot = none := absent
  dsimp only
  rw [none]
  rfl

theorem startQuery_issuing {s : State} {kind : ActionKind} {e : DirEntry} {identity : Identity} {image : Image}
    (issuing : e.condition = .issuing) (entry : s.issueEntry e.slot = some (identity, image)) :
    s.startQuery kind e = s.finishQuery kind e (some identity) (some image) := by
  unfold State.startQuery
  rw [if_pos issuing, entry]
  rfl

/-- The fourth word of a query: class, condition, two marks, and who claims the record. -/
def recordWord (cls condition : BitVec 2) (unidentified imageless : Bool) (claimed : BitVec 6) : Word :=
  cls ++ condition ++ BitVec.ofBool unidentified ++ BitVec.ofBool imageless ++ 0#4 ++ claimed

theorem recordWord_fields (cls condition : BitVec 2) (unidentified imageless : Bool) (claimed : BitVec 6) :
    (recordWord cls condition unidentified imageless claimed).extractLsb' 14 2 = cls ∧
    (recordWord cls condition unidentified imageless claimed).extractLsb' 12 2 = condition ∧
    (recordWord cls condition unidentified imageless claimed).getLsbD 11 = unidentified ∧
    (recordWord cls condition unidentified imageless claimed).getLsbD 10 = imageless ∧
    (recordWord cls condition unidentified imageless claimed).extractLsb' 0 6 = claimed :=
  ⟨extract_past (extract_past (extract_past (extract_past (extract_past BitVec.extractLsb'_eq_self)))),
    extract_past (extract_past (extract_past (extract_past (extract_low _ _)))),
    (getLsbD_above (v := 6) _ _ (by decide)).trans ((getLsbD_above (v := 4) _ _ (by decide)).trans
      ((getLsbD_above (v := 1) _ _ (by decide)).trans (getLsbD_bool _ _))),
    (getLsbD_above (v := 6) _ _ (by decide)).trans ((getLsbD_above (v := 4) _ _ (by decide)).trans (getLsbD_bool _ _)),
    extract_low _ _⟩

theorem liveWord_fields (copy : Copy) (generation : Gen) :
    (0#7 ++ copy.code ++ generation : Word).getLsbD 15 = false ∧
    (0#7 ++ copy.code ++ generation : Word).getLsbD 8 = decide (copy = .b) ∧
    (0#7 ++ copy.code ++ generation : Word).extractLsb' 0 8 = generation := by
  refine ⟨?_, ?_, extract_low _ _⟩
  · exact (getLsbD_above (v := 8) _ _ (by decide)).trans ((getLsbD_above (v := 1) _ _ (by decide)).trans rfl)
  · refine (getLsbD_above (v := 8) _ _ (by decide)).trans ?_
    cases copy <;> rfl

theorem imageWord_fields (state : BitVec 2) (last : BitVec 6) :
    (state ++ 0#8 ++ last : Word).extractLsb' 14 2 = state ∧ (state ++ 0#8 ++ last : Word).extractLsb' 0 6 = last :=
  ⟨extract_past (extract_past BitVec.extractLsb'_eq_self), extract_low _ _⟩

theorem posCode_eq (p : Option Pos) : posCode p = match p with
    | none => 0
    | some p => BitVec.ofNat 6 (p.val + 1) := by
  cases p <;> rfl

/-- Settles O39. -/
theorem queriesAndTheirWords : Obligations.QueriesAndTheirWords := by
  refine ⟨fun s h => ⟨fun absent => done_running h ?_, fun e identity image found issuing entry => done_running h ?_,
    fun absent free => ?_, fun absent placed => ?_, fun e identity image found issuing entry => done_running h ?_⟩,
    fun e identity image => ?_⟩
  · have lookup : s.taken.lookup s.taken.port.staging.serial = none := absent
    rw [lookup]
    rfl
  · have lookup : s.taken.lookup s.taken.port.staging.serial = some e := found
    rw [lookup]
    exact startQuery_issuing (s := s.taken) issuing entry
  · have word : slotWord 0 s.port.staging.slot = BitVec.ofNat 16 s.port.staging.slot.val :=
      (slotWord_eq 0 _).trans (congrArg (BitVec.ofNat 16) (Nat.zero_add _))
    rw [querySlot_unindexed h absent, State.slotClass_free absent free, word]
    rfl
  · rw [querySlot_unindexed h absent, State.slotClass_orphan absent placed, slotWord_eq]
    rfl
  · have lookup : s.taken.bySlot s.taken.port.staging.slot = some e := found
    have word : BitVec.ofNat 16 (32768 + e.slot.val) = slotWord 2 e.slot := (slotWord_eq 2 e.slot).symm
    dsimp only
    rw [lookup, word]
    exact startQuery_issuing (s := s.taken) issuing entry
  · obtain ⟨cls, condition, unidentified, imageless, claimed⟩ := recordWord_fields e.cls.code e.condition.code
      identity.isNone image.isNone (posCode e.claimedBy)
    refine ⟨_, _, _, rfl, cls, condition, unidentified, imageless, claimed.trans (posCode_eq _), fun dead => ?_,
      fun copy generation live => ?_, fun imageless => ?_, fun i read => ?_⟩
    · rw [dead]
    · rw [live]
      exact liveWord_fields copy generation
    · rw [imageless]
    · rw [read]
      obtain ⟨state, last⟩ := imageWord_fields i.state.code (posCode i.lastPosition)
      exact ⟨state, last.trans (posCode_eq _)⟩

/-! ### The tests of a claim (O46) -/

/-- The tests of a claim that its record passes (R33). -/
theorem completeClaim_reached {s : State} {x : Serial} {e : DirEntry} {p : Pos} {i : Image} (found : s.lookup x = some e)
    (good : e.condition = .good) (unclaimed : e.claimedBy = none) (powered : s.pins.pwrlow = false) :
    s.completeClaim x p (some i) =
      if i.state = .blocked then (s.raiseHotCard x p, .refused .blocked)
      else if i.expired s.today then (s, .refused .expired)
      else if (i.state = .empty ∨ i.balance = 0) ∧ e.cls ≠ .service then (s, .refused (.empty i.balance))
      else if s.hasRoom = false then (s.raiseAdmission, .wait)
      else (s.onEntry e.slot fun e => { e with claimedBy := some p }, .accepted e.slot e.cls (i.granted p s.today)) := by
  unfold State.completeClaim
  rw [found]
  dsimp only
  rw [if_neg (by rw [good]; decide), if_neg (by rw [good]; decide), if_neg (by rw [unclaimed]; nofun),
    if_neg (by rw [powered]; nofun)]

theorem Image.expired_iff (i : Image) (today : BitVec 16) :
    i.expired today = true ↔ i.expiry ≠ 0 ∧ i.expiry.toNat < today.toNat := by
  unfold Image.expired
  rw [Bool.and_eq_true_iff, decide_eq_true_iff, decide_eq_true_iff, BitVec.lt_def]

theorem Image.granted_eq (i : Image) (p : Pos) (today : BitVec 16) : i.granted p today = { i with
    state := if i.state = .fresh then .active else i.state
    useCount := BitVec.ofNat 16 (min 65535 (i.useCount.toNat + 1))
    lastPosition := some p, lastUseDay := today } := by
  rw [Image.granted, nextDay]

/-- Settles O46. -/
theorem claimsAreTestedInOrder : Obligations.ClaimsAreTestedInOrder := by
  intro s x p i
  dsimp only
  rw [← State.today_eq]
  refine ⟨fun absent => ?_, fun e found => ⟨fun issuing => ?_, fun faulty => ?_, fun good claimed => ?_,
    fun good unclaimed low => ?_, fun good unclaimed powered => ?_⟩⟩
  · unfold State.completeClaim
    rw [absent]
  · unfold State.completeClaim
    rw [found]
    exact if_pos issuing
  · unfold State.completeClaim
    rw [found]
    refine (if_neg ?_).trans (if_pos faulty)
    obtain e | e := faulty <;> rw [e] <;> decide
  · unfold State.completeClaim
    rw [found]
    exact (if_neg (by rw [good]; decide)).trans ((if_neg (by rw [good]; decide)).trans
      (if_pos (Option.isSome_iff_ne_none.2 claimed)))
  · unfold State.completeClaim
    rw [found]
    exact (if_neg (by rw [good]; decide)).trans ((if_neg (by rw [good]; decide)).trans
      ((if_neg (by rw [unclaimed]; nofun)).trans (if_pos low)))
  · rw [completeClaim_reached found good unclaimed powered]
    refine ⟨fun blocked => if_pos blocked, fun open' dated past => ?_, fun open' current => ⟨fun empty class' => ?_,
      fun usable => ⟨fun full => ?_, fun room => ⟨i.granted p s.today, ?_, i.granted_eq p s.today, ?_⟩⟩⟩⟩
    · rw [if_neg open', if_pos ((i.expired_iff s.today).2 ⟨dated, past⟩)]
    all_goals
      have fresh : ¬i.expired s.today = true := fun old => by
        obtain ⟨dated, past⟩ := (i.expired_iff s.today).1 old
        exact current.elim dated (not_le.2 past)
      rw [if_neg open', if_neg fresh]
    · rw [if_pos ⟨empty, class'⟩]
    all_goals
      have rich : ¬((i.state = .empty ∨ i.balance = 0) ∧ e.cls ≠ .service) := fun poor =>
        usable.elim (fun some => poor.1.elim some.1 some.2) poor.2
      rw [if_neg rich]
    · rw [if_pos full]
    · rw [if_neg (by rw [room]; nofun)]
    · rw [if_neg (by rw [room]; nofun)]
      rfl

/-! ### The state after reset (O55) -/

theorem State.reset_line (l : LineIx) : State.reset.line l = .reset := Vector.getElem_replicate _

theorem State.reset_ctx (p : Pos) : State.reset.ctx p = .reset := Vector.getElem_replicate _

theorem State.reset_queueBounded : State.reset.queueBounded := by
  refine ⟨by decide, fun _ full => ?_⟩
  have empty : State.reset.engine.waiting.length + State.reset.unqueuedClaims = 0 := rfl
  rw [empty] at full
  nomatch full

theorem State.reset_directorySound : State.reset.directorySound where
  slots := .nil
  serials := .nil
  rebuild := nofun
  requests := .inl rfl
  served := fun _ => ⟨rfl, rfl⟩
  asleep := fun _ => ⟨rfl, rfl, rfl, ⟨rfl, rfl, rfl, rfl⟩, fun l => by rw [State.reset_line]; rfl⟩
  claims := fun p k held => by
    rw [State.reset_ctx] at held
    nomatch held

theorem State.reset_laws : State.reset.linesLegal ∧ State.reset.ordersCurrent ∧ State.reset.positionsSound ∧
    State.reset.positionsServed := by
  refine ⟨fun l => ?_, fun p => ?_, fun p => ?_, fun p on => ?_⟩
  · rw [State.reset_line]
    decide
  · rw [State.reset_ctx]
    rfl
  · rw [State.reset_ctx]
    exact Position.fair.sound ⟨fun _ => ⟨rfl, rfl, rfl⟩, le_rfl, Nat.zero_le _⟩ rfl nofun nofun fun _ => rfl
  · rw [State.reset_ctx] at on
    exact absurd rfl on

theorem State.reset_tariff : State.reset.tariff.legal ∧ State.reset.tariff.bandCurrent := by
  refine ⟨⟨by decide, by decide, by decide, .nil, nofun, fun i => ?_⟩, rfl⟩
  show (Vector.replicate 16 0)[i] ≤ _
  simp

theorem State.reset_units : State.reset.attention.legal ∧ State.reset.engine.sound :=
  ⟨⟨Nat.zero_le _, fun _ => ⟨rfl, rfl⟩, nofun⟩, .nil, nofun,
    fun f flies => absurd flies (Option.not_mem_none f), Nat.zero_le _⟩

/-- Settles O55. -/
theorem theResetStateIsSafe : Obligations.TheResetStateIsSafe := by
  obtain ⟨lines, orders, positions, served⟩ := State.reset_laws
  exact ⟨rfl, lines, rfl, rfl, State.reset_tariff.1, State.reset_tariff.2, State.reset_units.1, State.reset_units.2,
    orders, positions, served, State.reset_directorySound, State.reset_queueBounded⟩

end Sys2Proof.Machine
end

section
/-!
PROOFS. The store engine's writes: the steps of an ISSUE and of an erase (O50).
-/

namespace Sys2Proof.Machine

/-! ### What a verify counts and finds -/

/-- The count of corrected reads after `weak` more (R144). -/
def Engine.counted (weak : Nat) (g : Engine) : Engine :=
  { g with corrected := if weak = 0 then g.corrected else min 65535 (g.corrected + weak) }

theorem State.countCorrected_counted (corrected : Bool) (s : State) :
    s.countCorrected corrected = s.onEngine (Engine.counted corrected.toNat) := by
  cases corrected <;> rfl

theorem Engine.counted_add (n m : Nat) (g : Engine) : (g.counted n).counted m = g.counted (n + m) := by
  have counts : (if m = 0 then (g.counted n).corrected else min 65535 ((g.counted n).corrected + m)) =
      if n + m = 0 then g.corrected else min 65535 (g.corrected + (n + m)) := by
    simp only [Engine.counted]
    split <;> split <;> split <;> omega
  exact congrArg (fun c => { g with corrected := c }) counts

/-- The corrected reads of the verify of a whole record. -/
def weakReads (r : Record) : Nat :=
  (readIdentity r.identity).isCorrected.toNat + (readValue r.copyA).isCorrected.toNat +
    (readValue r.copyB).isCorrected.toNat

theorem State.countVerify_eq (r : Record) (s : State) : s.countVerify r = s.onEngine (Engine.counted (weakReads r)) := by
  unfold State.countVerify weakReads
  rw [State.countCorrected_counted, State.countCorrected_counted, State.countCorrected_counted]
  refine congrArg (fun g => { s with engine := g }) ?_
  rw [← Engine.counted_add, ← Engine.counted_add]
  rfl

theorem State.stepping_flight {s : State} (idle : s.engine.reading = none) {f : Flight} (flight : s.engine.flight = some f) :
    s.stepping = some f := by
  unfold State.stepping
  rw [idle, flight]
  rfl

theorem raiseStoreFault_storeFault (x : Slot) (cause : Option (EntryKind × Origin)) (s : State) :
    (s.raiseStoreFault x cause).attention.storeFault = some { slot := x, cause := cause } := by
  show (Attention.afterEvent _ _ _).storeFault = _
  unfold Attention.afterEvent Attention.beginPulse
  split
  · split <;> rfl
  · rfl

theorem State.record_twice {s : State} (wf : storeWf s.store = true) (x : Slot) (f g : Record → Record) :
    ((s.onRecord x f).onRecord x g).record x = g (f (s.record x)) ∧
      ∀ y, y ≠ x → ((s.onRecord x f).onRecord x g).record y = s.record y := by
  have inner := fun y => State.record_onRecord x y f s wf
  have outer := fun y => State.record_onRecord x y g (s.onRecord x f) (State.storeWf_onRecord _ _ _ wf)
  refine ⟨(outer x).trans ((if_pos rfl).trans (congrArg g ((inner x).trans (if_pos rfl)))), fun y away => ?_⟩
  exact (outer y).trans ((if_neg away.symm).trans ((inner y).trans (if_neg away.symm)))

/-! ### The steps as they end -/

section
variable {s : State} {e : QueueEntry} {p : Progress} {operand : Record}

/-- The erase of an ISSUE goes on to its identity where the slot reads blank (R141). -/
theorem issueErase_complete (idle : s.engine.reading = none)
    (flight : s.engine.flight = some { entry := e, step := .issueErase, progress := p }) {left : Record}
    (found : s.found { entry := e, step := .issueErase, progress := p } operand = left) : s.issueStepComplete operand =
      if left = blankRecord then
        ((s.onRecord e.slot fun _ => left).onEngine (Engine.counted (weakReads left))).begin e .issueIdentity
      else ((s.onRecord e.slot fun _ => left).onEngine (Engine.counted (weakReads left))).issueFailed e := by
  unfold State.issueStepComplete
  rw [State.stepping_flight idle flight]
  dsimp only
  rw [found, State.countVerify_eq]
  by_cases blank : left = blankRecord
  · rw [if_pos blank]
    exact if_pos (decide_eq_true blank)
  · rw [if_neg blank]
    exact if_neg (fun reads => blank (of_decide_eq_true reads))

/-- The identity of an ISSUE goes on to copy A where it reads as written (R141). -/
theorem issueIdentity_complete (idle : s.engine.reading = none)
    (flight : s.engine.flight = some { entry := e, step := .issueIdentity, progress := p }) {identity : Identity} {i : Image}
    (work : e.work = .issue identity i) {left : Record}
    (found : s.found { entry := e, step := .issueIdentity, progress := p } operand = left) : s.issueStepComplete operand =
      if (readIdentity left.identity).valid = some identity then
        ((s.onRecord e.slot fun x => x.take .identity left).onEngine
          (Engine.counted (readIdentity left.identity).isCorrected.toNat)).begin e .issueCopyA
      else ((s.onRecord e.slot fun x => x.take .identity left).onEngine
        (Engine.counted (readIdentity left.identity).isCorrected.toNat)).issueFailed e := by
  unfold State.issueStepComplete
  rw [State.stepping_flight idle flight]
  dsimp only
  rw [work]
  dsimp only
  rw [found, State.countCorrected_counted]

/-- Copy A makes the record GOOD where it reads as written (R141). -/
theorem issueCopyA_complete (idle : s.engine.reading = none)
    (flight : s.engine.flight = some { entry := e, step := .issueCopyA, progress := p }) {identity : Identity} {i : Image}
    (work : e.work = .issue identity i) {left : Record}
    (found : s.found { entry := e, step := .issueCopyA, progress := p } operand = left) : s.issueStepComplete operand =
      if (readValue left.copyA).valid = some (i, 0) then
        ((s.onRecord e.slot fun x => x.take .copyA left).onEngine
          (Engine.counted (readValue left.copyA).isCorrected.toNat)).endFlight.onEntry e.slot
            fun d => { d with condition := .good, live := some (.a, 0) }
      else ((s.onRecord e.slot fun x => x.take .copyA left).onEngine
        (Engine.counted (readValue left.copyA).isCorrected.toNat)).issueFailed e := by
  have image : e.image.map (fun i => (i, (0 : Gen))) = some (i, 0) := by rw [QueueEntry.image, work]; rfl
  unfold State.issueStepComplete
  rw [State.stepping_flight idle flight]
  dsimp only
  rw [found, State.countCorrected_counted, image]

/-- The erase of a slot frees it where it reads blank, and else fails or is put back (R142). -/
theorem erase_complete (idle : s.engine.reading = none)
    (flight : s.engine.flight = some { entry := e, step := .erase, progress := p }) {left : Record}
    (found : s.found { entry := e, step := .erase, progress := p } operand = left) : s.eraseComplete operand =
      if left = blankRecord then
        (((s.onRecord e.slot fun _ => left).onEngine (Engine.counted (weakReads left))).endFlight).onDir fun d =>
          { d with free := d.free ++ [e.slot], orphans := d.orphans - 1 }
      else if 2 ≤ e.attempts then
        (((s.onRecord e.slot fun _ => left).onEngine (Engine.counted (weakReads left))).endFlight).raiseStoreFault e.slot
          (some (e.kind, e.origin))
      else (((s.onRecord e.slot fun _ => left).onEngine (Engine.counted (weakReads left))).endFlight).putBack e := by
  unfold State.eraseComplete
  rw [State.stepping_flight idle flight]
  dsimp only
  rw [if_pos rfl, found, State.countVerify_eq]
  by_cases blank : left = blankRecord
  · rw [if_pos blank]
    exact if_pos (decide_eq_true blank)
  · rw [if_neg blank]
    exact if_neg (fun reads => blank (of_decide_eq_true reads))

end

/-- Settles O50. -/
theorem issueAndEraseStepsComplete : Obligations.IssueAndEraseStepsComplete := by
  intro s e p operand h wf idle left weakI weakA weakB blank r leaves damaged c
  have found : ∀ step, s.found { entry := e, step := step, progress := p } operand = left := fun step => by cases p <;> rfl
  have one := fun f => (⟨(State.record_onRecord e.slot e.slot f s wf).trans (if_pos rfl), fun y away =>
    (State.record_onRecord e.slot y f s wf).trans (if_neg (Ne.symm away))⟩ :
      (s.onRecord e.slot f).record e.slot = f (s.record e.slot) ∧
        ∀ y, y ≠ e.slot → (s.onRecord e.slot f).record y = s.record y)
  have two := State.record_twice wf e.slot
  refine ⟨fun identity i work => ⟨fun flight => ⟨fun same => ?_, fun other => ?_⟩,
    fun flight => ⟨fun same => ?_, fun other => ?_⟩, fun flight => ⟨fun same => ?_, fun other => ?_⟩⟩,
    fun flight erases => ⟨fun same => ?_, fun other few => ?_, fun other many => ?_⟩⟩
  · obtain ⟨here, away⟩ := two (fun _ => left) (FlightStep.issueIdentity.cells FlightStep.issueIdentity.first)
    refine ⟨_, done_event h ((issueErase_complete idle flight (found _)).trans (if_pos same)), ?_,
      here.trans ?_, away, fun _ => rfl, nofun⟩
    · rw [same]
      rfl
    · rw [same]
      rfl
  · obtain ⟨here, away⟩ := one fun _ => left
    exact ⟨_, done_event h ((issueErase_complete idle flight (found _)).trans (if_neg other)), rfl, here, away, nofun,
      fun kind fault => by cases fault; exact raiseStoreFault_storeFault _ _ _⟩
  · obtain ⟨here, away⟩ := two (fun x => x.take .identity left) (FlightStep.issueCopyA.cells FlightStep.issueCopyA.first)
    exact ⟨_, done_event h ((issueIdentity_complete idle flight work (found _)).trans (if_pos same)), rfl, here, away,
      fun _ => rfl, nofun⟩
  · obtain ⟨here, away⟩ := one fun x => x.take .identity left
    exact ⟨_, done_event h ((issueIdentity_complete idle flight work (found _)).trans (if_neg other)), rfl, here, away, nofun,
      fun kind fault => by cases fault; exact raiseStoreFault_storeFault _ _ _⟩
  · obtain ⟨here, away⟩ := one fun x => x.take .copyA left
    exact ⟨_, done_event h ((issueCopyA_complete idle flight work (found _)).trans (if_pos same)), rfl, here, away,
      fun _ => rfl, nofun⟩
  · obtain ⟨here, away⟩ := one fun x => x.take .copyA left
    exact ⟨_, done_event h ((issueCopyA_complete idle flight work (found _)).trans (if_neg other)), rfl, here, away, nofun,
      fun kind fault => by cases fault; exact raiseStoreFault_storeFault _ _ _⟩
  · obtain ⟨here, away⟩ := one fun _ => left
    refine ⟨_, done_event h ((erase_complete idle flight (found _)).trans (if_pos same)), ?_, here.trans same, away,
      fun _ => rfl, nofun⟩
    rw [same]
    rfl
  · obtain ⟨here, away⟩ := one fun _ => left
    exact ⟨_, done_event h ((erase_complete idle flight (found _)).trans ((if_neg other).trans (if_neg (not_le.2 few)))),
      rfl, here, away, fun _ => rfl, nofun⟩
  · obtain ⟨here, away⟩ := one fun _ => left
    refine ⟨_, done_event h ((erase_complete idle flight (found _)).trans ((if_neg other).trans (if_pos many))),
      rfl, here, away, nofun, fun kind fault => ?_⟩
    cases fault
    have kinds : e.kind = if e.work = .retire then .retire else .eraseSlot := by
      unfold QueueEntry.kind
      obtain retires | erases := erases
      · rw [retires]
        rfl
      · rw [erases]
        rfl
    exact (raiseStoreFault_storeFault _ _ _).trans (by rw [kinds])

end Sys2Proof.Machine
end

section
/-!
PROOFS. Images offered to the queue, and the end of a VALUE write (O49).
-/

namespace Sys2Proof.Machine

/-! ### What an offer changes -/

theorem Port.onlyMarked.refl (p : Port) : p.onlyMarked p := ⟨rfl, .inl rfl⟩

theorem Port.onlyMarked.trans {p q r : Port} (h : p.onlyMarked q) (k : q.onlyMarked r) : p.onlyMarked r := by
  obtain ⟨same, marks⟩ := h
  obtain ⟨same', marks'⟩ := k
  refine ⟨?_, ?_⟩
  · rw [same', same]
  · obtain kept' | ⟨a', at', marked'⟩ := marks'
    · rw [kept']
      exact marks
    · obtain kept | ⟨a, at'', marked⟩ := marks
      · exact .inr ⟨a', kept ▸ at', marked'⟩
      · cases marked.symm.trans at'
        exact .inr ⟨a, at'', marked'⟩

/-- A waiting entry of another record, as a test. -/
def elsewhere (xs : List Slot) (e : QueueEntry) : Bool := decide (e.slot ∉ xs)

theorem filter_narrower {α : Type} {p q : α → Bool} (narrower : ∀ a, q a = true → p a = true) {l l' : List α}
    (h : l.filter p = l'.filter p) : l.filter q = l'.filter q := by
  have through : ∀ m : List α, m.filter q = (m.filter p).filter q := fun m => by
    rw [List.filter_filter]
    exact List.filter_congr fun a _ => by
      cases took : q a with
      | false => rfl
      | true => rw [narrower a took]; rfl
  rw [through l, through l', h]

theorem filter_map_kept {α : Type} {p : α → Bool} {f : α → α} (same : ∀ a, p (f a) = p a)
    (kept : ∀ a, p a = true → f a = a) (l : List α) : (l.map f).filter p = l.filter p := by
  induction l with
  | nil => rfl
  | cons a rest ih =>
    rw [List.map_cons, List.filter_cons, List.filter_cons, ih, same]
    cases took : p a with
    | false => rfl
    | true => rw [kept a took]

/-- Images have been offered for records of the slots `xs`: nothing has changed but the entries waiting for them and
the marks that tell the waiting claims and the waiting action so (R33, R134, R159). -/
structure State.offers (s t : State) (xs : List Slot) : Prop where
  rest : t = { s with
    engine := { s.engine with waiting := t.engine.waiting }, dir := { s.dir with claims := t.dir.claims }, port := t.port }
  waiting : t.engine.waiting.filter (elsewhere xs) = s.engine.waiting.filter (elsewhere xs)
  claims : t.dir.claims.map FlightClaim.marked = s.dir.claims.map FlightClaim.marked
  port : s.port.onlyMarked t.port

namespace State.offers

theorem refl (s : State) (xs : List Slot) : s.offers s xs := ⟨rfl, rfl, rfl, .refl _⟩

theorem trans {s t u : State} {xs : List Slot} (h : s.offers t xs) (k : t.offers u xs) : s.offers u xs := by
  refine ⟨?_, k.waiting.trans h.waiting, k.claims.trans h.claims, h.port.trans k.port⟩
  rw [k.rest, h.rest]

/-- What the port shows once a queue entry has appeared for a record. -/
theorem port_markAppeared (x : Slot) (s : State) : s.port.onlyMarked (s.markAppeared x).port := by
  show s.port.onlyMarked (match s.port.result with
    | .working a => if a.slot = x then { s.port with result := .working { a with appeared := true } } else s.port
    | _ => s.port)
  split
  · next a waits =>
    split
    · exact ⟨rfl, .inr ⟨a, waits, rfl⟩⟩
    · exact .refl _
  · exact .refl _

theorem joinQueue {e : QueueEntry} {xs : List Slot} (mem : e.slot ∈ xs) (s : State) : s.offers (s.joinQueue e) xs := by
  refine ⟨rfl, ?_, ?_, port_markAppeared e.slot s⟩
  · show (s.engine.waiting ++ [e]).filter _ = _
    have no : elsewhere xs e = false := decide_eq_false (not_not.2 mem)
    rw [List.filter_append, List.filter_singleton, no]
    exact List.append_nil _
  · show ((s.dir.claims.map _).map _) = _
    rw [List.map_map]
    refine List.map_congr_left fun c _ => ?_
    show FlightClaim.marked (if c.slot = e.slot then _ else c) = _
    split <;> rfl

theorem coalesce {x : Slot} {xs : List Slot} (mem : x ∈ xs) (i : Image) (origin : Origin) (s : State) :
    s.offers (s.coalesce x i origin) xs := by
  refine ⟨rfl, filter_map_kept (fun e => ?_) (fun e away => if_neg ?_) _, rfl, .refl _⟩
  · split <;> rfl
  · rintro ⟨-, rfl⟩
    exact of_decide_eq_true away mem

theorem offerSettlement {x : Slot} {xs : List Slot} (mem : x ∈ xs) (i : Image) (s : State) :
    s.offers (s.offerSettlement x i) xs := by
  unfold State.offerSettlement
  split
  · exact coalesce mem i _ s
  · exact joinQueue mem s

theorem offerValue {x : Slot} {xs : List Slot} (mem : x ∈ xs) {i : Image} {origin : Origin} {s t : State}
    (h : s.offerValue x i origin = some t) : s.offers t xs := by
  unfold State.offerValue at h
  split at h
  · cases h
    exact coalesce mem i _ s
  · split at h
    · cases h
      exact joinQueue mem s
    · nomatch h

theorem offerValue_getD {x : Slot} {xs : List Slot} (mem : x ∈ xs) (i : Image) (origin : Origin) (s : State) :
    s.offers ((s.offerValue x i origin).getD s) xs := by
  cases found : s.offerValue x i origin with
  | none => exact refl s xs
  | some t => exact offerValue mem found

theorem offerRefresh {x : Slot} {xs : List Slot} (mem : x ∈ xs) (s : State) : s.offers (s.offerRefresh x) xs := by
  unfold State.offerRefresh
  split
  · exact refl s xs
  · split
    · exact refl s xs
    · split
      · split
        · exact coalesce mem _ _ s
        · exact refl s xs
      · split
        · exact refl s xs
        · split
          · exact offerValue_getD mem _ _ s
          · exact refl s xs

end State.offers

/-! ### The one waiting entry of a record -/

section
variable {s : State} {x : Slot} {before after : List QueueEntry} {w : QueueEntry}

/-- The test that picks the waiting VALUE entry of a record. -/
def valueOf (x : Slot) (e : QueueEntry) : Bool := e.isValue && e.slot == x

theorem valueOf_iff (x : Slot) (e : QueueEntry) : valueOf x e = true ↔ e.isValue = true ∧ e.slot = x := by
  unfold valueOf
  rw [Bool.and_eq_true_iff, beq_iff_eq]

theorem coalesce_waiting (at' : s.engine.waiting = before ++ w :: after) (value : w.isValue = true) (slot : w.slot = x)
    (once : ∀ v ∈ before ++ after, v.isValue = true → v.slot ≠ x) (i : Image) (origin : Origin) :
    (s.coalesce x i origin).engine.waiting = before ++ { w with work := .value i, origin := origin } :: after := by
  have kept : ∀ l : List QueueEntry, (∀ v ∈ l, v ∈ before ++ after) → l.map (fun e =>
      if e.isValue = true ∧ e.slot = x then { e with work := .value i, origin := origin } else e) = l := fun l within =>
    (List.map_congr_left fun v mem => if_neg fun mine => once v (within v mem) mine.1 mine.2).trans (List.map_id l)
  show s.engine.waiting.map _ = _
  rw [at', List.map_append, List.map_cons, if_pos ⟨value, slot⟩, kept before fun v mem => List.mem_append_left _ mem,
    kept after fun v mem => List.mem_append_right _ mem]

theorem moveToHead_waiting (at' : s.engine.waiting = before ++ w :: after) (value : w.isValue = true) (slot : w.slot = x)
    (once : ∀ v ∈ before ++ after, v.isValue = true → v.slot ≠ x) (attempts : Nat) :
    (s.moveToHead x attempts).engine.waiting = { w with attempts := attempts } :: (before ++ after) := by
  have none : ∀ l : List QueueEntry, (∀ v ∈ l, v ∈ before ++ after) → l.filter (valueOf x) = [] := fun l within =>
    List.filter_eq_nil_iff.2 fun v mem mine => once v (within v mem) ((valueOf_iff x v).1 mine).1 ((valueOf_iff x v).1 mine).2
  have all : ∀ l : List QueueEntry, (∀ v ∈ l, v ∈ before ++ after) → l.filter (fun e => !valueOf x e) = l :=
    fun l within => List.filter_eq_self.2 fun v mem => by
      rw [Bool.not_eq_true', ← Bool.not_eq_true, valueOf_iff]
      exact fun mine => once v (within v mem) mine.1 mine.2
  have first : ∀ v ∈ before, v ∈ before ++ after := fun v mem => List.mem_append_left _ mem
  have last : ∀ v ∈ after, v ∈ before ++ after := fun v mem => List.mem_append_right _ mem
  have mine : valueOf x w = true := (valueOf_iff x w).2 ⟨value, slot⟩
  show ((s.engine.waiting.filter (valueOf x)).map _) ++ s.engine.waiting.filter (fun e => !valueOf x e) = _
  rw [at', List.filter_append, List.filter_append, List.filter_cons, List.filter_cons, mine, none before first,
    none after last, all before first, all after last]
  rfl

theorem hasWaitingValue_of (at' : s.engine.waiting = before ++ w :: after) (value : w.isValue = true) (slot : w.slot = x) :
    s.hasWaitingValue x = true :=
  List.any_eq_true.2 ⟨w, at' ▸ List.mem_append_right _ List.mem_cons_self, (valueOf_iff x w).2 ⟨value, slot⟩⟩

theorem hasEntry_of_flight {f : Flight} (flight : s.engine.flight = some f) (slot : f.entry.slot = x) :
    s.hasEntry x = true := by
  unfold State.hasEntry State.inFlight
  rw [flight, Bool.or_eq_true]
  exact .inr (beq_iff_eq.2 slot)

theorem queuedImage_of {j : Image} (at' : s.engine.waiting = before ++ w :: after) (work : w.work = .value j)
    (slot : w.slot = x) (once : ∀ v ∈ before ++ after, v.slot ≠ x) : s.queuedImage x = some j := by
  have image : w.image = some j := by rw [QueueEntry.image, work]
  have mine : (w.image.isSome && w.slot == x) = true := by rw [image, slot]; exact beq_self_eq_true x
  have none : before.find? (fun e => e.image.isSome && e.slot == x) = none := List.find?_eq_none.2 fun v mem took =>
    once v (List.mem_append_left _ mem) (beq_iff_eq.1 (Bool.and_eq_true_iff.1 took).2)
  unfold State.queuedImage
  rw [at', List.find?_append, none, List.find?_cons, mine]
  exact image

theorem isValue_of {j : Image} (work : w.work = .value j) : w.isValue = true := by rw [QueueEntry.isValue, work]

theorem work_of_isValue (value : w.isValue = true) : ∃ j, w.work = .value j := by
  unfold QueueEntry.isValue at value
  split at value
  · next j work => exact ⟨j, work⟩
  · nomatch value

end

/-! ### When a refresh is offered -/

section
variable {s : State} {x : Slot}

/-- A refresh is offered of an indexed record that is not ISSUING, and not in the drain (R145). -/
def State.refreshes (s : State) (x : Slot) : Prop :=
  s.port.mode ≠ .draining ∧ ∃ d, s.bySlot x = some d ∧ d.condition ≠ .issuing

theorem offerRefresh_dropped (h : ¬s.refreshes x) : s.offerRefresh x = s := by
  unfold State.offerRefresh
  split
  · rfl
  · next d found =>
    refine if_pos ?_
    by_contra neither
    rw [not_or] at neither
    exact h ⟨neither.2, d, found, neither.1⟩

theorem offerRefresh_offered (h : s.refreshes x) : s.offerRefresh x =
    if s.hasWaitingValue x then
      match s.queuedImage x with
      | some image => s.coalesce x image .refresh
      | none => s
    else if s.hasEntry x then s
    else
      match s.storedImage x with
      | some image => (s.offerValue x image .refresh).getD s
      | none => s := by
  obtain ⟨running, d, found, issued⟩ := h
  unfold State.offerRefresh
  rw [found]
  exact if_neg (not_or.2 ⟨issued, running⟩)

/-- The refresh of a record whose one waiting entry is a VALUE entry coalesces into it. -/
theorem offerRefresh_waits (h : s.refreshes x) {before after : List QueueEntry} {w : QueueEntry}
    (at' : s.engine.waiting = before ++ w :: after) (value : w.isValue = true) (slot : w.slot = x)
    (once : ∀ v ∈ before ++ after, v.slot ≠ x) : s.offerRefresh x = { s with
      engine := { s.engine with waiting := before ++ { w with origin := .refresh } :: after } } := by
  obtain ⟨j, work⟩ := work_of_isValue value
  rw [offerRefresh_offered h, if_pos (hasWaitingValue_of at' value slot), queuedImage_of at' work slot once]
  have waiting := coalesce_waiting at' value slot (fun v mem _ => once v mem) j .refresh
  rw [← work] at waiting
  exact congrArg (fun ws => { s with engine := { s.engine with waiting := ws } }) waiting

/-- The refresh of a record whose entry is in flight coalesces at most. -/
theorem offerRefresh_flies {f : Flight} (flight : s.engine.flight = some f) (slot : f.entry.slot = x) :
    ∃ ws, s.offerRefresh x = { s with engine := { s.engine with waiting := ws } } ∧
      (s.hasWaitingValue x = false → ws = s.engine.waiting) := by
  by_cases h : s.refreshes x
  · rw [offerRefresh_offered h]
    split
    · next waits =>
      have never : s.hasWaitingValue x = false → False := fun no => nomatch no.symm.trans waits
      split
      · exact ⟨_, rfl, fun no => (never no).elim⟩
      · exact ⟨_, rfl, fun _ => rfl⟩
    · exact ⟨_, if_pos (hasEntry_of_flight flight slot), fun _ => rfl⟩
  · exact ⟨_, offerRefresh_dropped h, fun _ => rfl⟩

end

end Sys2Proof.Machine
end

section
/-!
PROOFS. The end of a VALUE write (O49).
-/

namespace Sys2Proof.Machine

/-! ### The failed write -/

/-- The part once a VALUE write's flight has read its granule: the cells, and the count of corrected reads. -/
def State.read (s : State) (x : Slot) (copy : Copy) (cells : Granule RawValue) : State :=
  (s.onRecord x fun r => r.withCopy copy cells).onEngine (Engine.counted (readValue cells).isCorrected.toNat)

/-- What the refresh that a failed write offers leaves of the part (log 24). -/
theorem failedRefresh {s : State} {f : Flight} (flight : s.engine.flight = some f) (corrected : Bool) :
    ∃ ws, (if corrected then s.offerRefresh f.entry.slot else s) = { s with engine := { s.engine with waiting := ws } } ∧
      (¬(corrected = true ∧ s.refreshes f.entry.slot) ∨ s.hasWaitingValue f.entry.slot = false → ws = s.engine.waiting) ∧
      (corrected = true ∧ s.refreshes f.entry.slot → ∀ before w after, s.engine.waiting = before ++ w :: after →
        w.isValue = true → w.slot = f.entry.slot → (∀ v ∈ before ++ after, v.slot ≠ f.entry.slot) →
        ws = before ++ { w with origin := .refresh } :: after) := by
  cases corrected with
  | false => exact ⟨_, rfl, fun _ => rfl, fun offers => nomatch offers.1⟩
  | true =>
    obtain ⟨ws, refreshed, alone⟩ := offerRefresh_flies flight rfl
    refine ⟨ws, refreshed, fun quiet => ?_, fun offers before w after at' value slot once => ?_⟩
    · obtain dropped | none := quiet
      · have same := (offerRefresh_dropped fun refreshes => dropped ⟨rfl, refreshes⟩).symm.trans refreshed
        exact (congrArg (fun t : State => t.engine.waiting) same).symm
      · exact alone none
    · have same := (offerRefresh_waits offers.2 at' value slot once).symm.trans refreshed
      exact (congrArg (fun t : State => t.engine.waiting) same).symm

/-- A failed write leaves the flight. -/
theorem valueFailed_spec (e : QueueEntry) (s : State) : ∃ ws entries attention,
    s.valueFailed e = { s with
      engine := { s.engine with flight := none, waiting := ws }
      dir := { s.dir with entries := entries }, attention := attention } ∧
    (e.attempts < 2 → attention = s.attention ∧ entries = s.dir.entries ∧
      (s.hasWaitingValue e.slot = false → ws = { e with attempts := e.attempts + 1 } :: s.engine.waiting) ∧
      ∀ before w after, s.engine.waiting = before ++ w :: after → w.isValue = true → w.slot = e.slot →
        (∀ v ∈ before ++ after, v.isValue = true → v.slot ≠ e.slot) →
        ws = { w with attempts := e.attempts + 1 } :: (before ++ after)) ∧
    (2 ≤ e.attempts → ws = s.engine.waiting ∧
      attention = (s.raiseStoreFault e.slot (some (.value, e.origin))).attention ∧
      entries = s.dir.entries.map fun d =>
        if d.slot = e.slot ∧ d.condition = .good then { d with condition := .worn } else d) := by
  unfold State.valueFailed
  dsimp only
  by_cases last : 2 ≤ e.attempts
  · rw [if_pos (show Config.lastAttempt ≤ e.attempts from last)]
    refine ⟨_, _, _, rfl, fun few => absurd last (not_le.2 few), fun _ => ⟨rfl, rfl, List.map_congr_left fun d _ => ?_⟩⟩
    by_cases mine : d.slot = e.slot
    · by_cases good : d.condition = .good
      · exact ((if_pos mine).trans (congrArg (fun c => { d with condition := c }) (if_pos good))).trans
          (if_pos (And.intro mine good)).symm
      · exact ((if_pos mine).trans (congrArg (fun c => { d with condition := c }) (if_neg good))).trans
          (if_neg (fun h : d.slot = e.slot ∧ d.condition = .good => good h.2)).symm
    · exact (if_neg mine).trans (if_neg (fun h : d.slot = e.slot ∧ d.condition = .good => mine h.1)).symm
  · rw [if_neg (show ¬Config.lastAttempt ≤ e.attempts from last)]
    cases waits : s.hasWaitingValue e.slot with
    | true =>
      rw [if_pos (show s.endFlight.hasWaitingValue e.slot = true from waits)]
      exact ⟨_, _, _, rfl, fun _ => ⟨rfl, rfl, nofun, fun before w after at' value slot once =>
        moveToHead_waiting (s := s.endFlight) at' value slot once _⟩, fun many => absurd many last⟩
    | false =>
      rw [if_neg (show ¬s.endFlight.hasWaitingValue e.slot = true by rw [show s.endFlight.hasWaitingValue e.slot = false from waits]; nofun)]
      exact ⟨_, _, _, rfl, fun _ => ⟨rfl, rfl, fun _ => rfl, fun before w after at' value slot once =>
        nomatch waits.symm.trans (hasWaitingValue_of at' value slot)⟩, fun many => absurd many last⟩

/-! ### The verified write -/

/-- The part once a VALUE write has verified: the note has moved, and the flight is over (R138). -/
def State.written (s : State) (x : Slot) (copy : Copy) (g : Gen) (cells : Granule RawValue) : State :=
  ((s.read x copy cells).noteLive x copy g).endFlight

theorem bySlot_noteLive {s : State} {x : Slot} {d : DirEntry} (found : s.bySlot x = some d) (copy : Copy) (g : Gen) :
    (s.noteLive x copy g).bySlot x = some { d with live := some (copy, g) } := by
  have same : (d.slot == x) = true := List.find?_some (p := fun e : DirEntry => e.slot == x) found
  have slot : d.slot = x := beq_iff_eq.1 same
  show List.find? _ (s.dir.entries.map _) = _
  rw [List.find?_map, List.find?_congr (p₂ := fun e => e.slot == x), show s.dir.entries.find? (fun e => e.slot == x) = some d from found,
    Option.map_some, if_pos slot]
  intro e _
  show ((if e.slot = x then _ else e : DirEntry).slot == x) = _
  split <;> rfl

theorem unqueuedClaims_noteLive (s : State) (x : Slot) (copy : Copy) (g : Gen) :
    (s.noteLive x copy g).unqueuedClaims = s.unqueuedClaims := by
  show (List.filter _ (s.dir.entries.map _)).length = _
  rw [List.filter_map, List.length_map]
  refine congrArg List.length (List.filter_congr fun e _ => ?_)
  show ((if e.slot = x then _ else e : DirEntry).claimedBy.isSome && !s.hasWaitingValue (if e.slot = x then _ else e : DirEntry).slot) = _
  split <;> rfl

/-- What the offer of a refresh leaves of a verified write. -/
theorem written_refreshed {s t : State} {x : Slot} {copy : Copy} {g : Gen} {cells : Granule RawValue}
    (h : (s.written x copy g cells).offers t [x]) : t = { s with
      store := t.store, dir := { s.dir with entries := t.dir.entries, claims := t.dir.claims }
      engine := { s.engine with flight := none, waiting := t.engine.waiting, corrected := t.engine.corrected }
      attention := t.attention, port := t.port } ∧
    t.store = (s.onRecord x fun r => r.withCopy copy cells).store ∧
    t.engine.corrected = (s.read x copy cells).engine.corrected ∧ s.port.onlyMarked t.port ∧ t.attention = s.attention ∧
    t.dir.entries = s.dir.entries.map fun d => if d.slot = x then { d with live := some (copy, g) } else d := by
  have rest := h.rest
  have shape : s.written x copy g cells = { s with
      store := (s.onRecord x fun r => r.withCopy copy cells).store
      dir := { s.dir with entries := (s.noteLive x copy g).dir.entries }
      engine := { s.engine with flight := none, corrected := (s.read x copy cells).engine.corrected } } := rfl
  have port : s.port.onlyMarked t.port := by
    have marked := h.port
    rwa [shape] at marked
  rw [shape] at rest
  have store : t.store = (s.onRecord x fun r => r.withCopy copy cells).store := by rw [rest]
  have corrected : t.engine.corrected = (s.read x copy cells).engine.corrected := by rw [rest]
  have attention : t.attention = s.attention := by rw [rest]
  have entries : t.dir.entries = (s.noteLive x copy g).dir.entries := by rw [rest]
  refine ⟨?_, store, corrected, port, attention, entries⟩
  rw [store, corrected, attention, entries]
  exact rest

/-- The refresh that a verified write offers carries the image written (R138, R144, R145). -/
theorem written_offerRefresh {s : State} {x : Slot} {copy : Copy} {g : Gen} {cells : Granule RawValue} {i : Image}
    (wf : storeWf s.store = true) (read : readValue cells = .corrected (i, g)) {d : DirEntry} (found : s.bySlot x = some d)
    (issued : d.condition ≠ .issuing) (running : s.port.mode ≠ .draining) :
    ((∀ w ∈ s.engine.waiting, w.slot ≠ x) → ((s.written x copy g cells).offerRefresh x).engine.waiting =
      if s.engine.waiting.length + 1 + s.unqueuedClaims + 1 ≤ 96 then
        s.engine.waiting ++ [{ work := .value i, slot := x, attempts := 0, origin := .refresh }]
      else s.engine.waiting) ∧
    ∀ before w after j, s.engine.waiting = before ++ w :: after → w.work = .value j → w.slot = x →
      (∀ v ∈ before ++ after, v.slot ≠ x) →
      ((s.written x copy g cells).offerRefresh x).engine.waiting = before ++ { w with origin := .refresh } :: after := by
  have same : s.written x copy g cells = { s.noteLive x copy g with
      store := (s.onRecord x fun r => r.withCopy copy cells).store
      engine := { s.engine with flight := none, corrected := min 65535 (s.engine.corrected + 1) } } := by
    unfold State.written State.read
    rw [read]
    rfl
  have slot : (s.written x copy g cells).bySlot x = some { d with live := some (copy, g) } := by
    rw [same]
    exact bySlot_noteLive found copy g
  have refreshes : (s.written x copy g cells).refreshes x := ⟨by rw [same]; exact running, _, slot, issued⟩
  refine ⟨fun none => ?_, fun before w after j at' work mine once => ?_⟩
  · have no : ∀ p : QueueEntry → Bool, s.engine.waiting.any (fun e => p e && e.slot == x) = false := fun p => by
      rw [List.any_eq_false]
      intro e mem took
      exact none e mem (beq_iff_eq.1 (Bool.and_eq_true_iff.1 took).2)
    have unqueued : (s.written x copy g cells).hasWaitingValue x = false := by
      rw [same]
      exact no QueueEntry.isValue
    have absent : (s.written x copy g cells).hasEntry x = false := by
      rw [same]
      show (s.engine.waiting.any (fun e => e.slot == x) || false) = false
      rw [Bool.or_false]
      exact no fun _ => true
    have stored : (s.written x copy g cells).storedImage x = some i := by
      have record : (s.written x copy g cells).record x = (s.record x).withCopy copy cells := by
        rw [same]
        exact (State.record_onRecord x x (fun r => r.withCopy copy cells) s wf).trans (if_pos rfl)
      unfold State.storedImage
      rw [slot]
      dsimp only
      rw [record, Record.copy_withCopy_same, read]
      rfl
    have room : (s.written x copy g cells).hasRoom = decide (s.engine.waiting.length + 1 + s.unqueuedClaims + 1 ≤ 96) := by
      rw [same, ← unqueuedClaims_noteLive s x copy g]
      show (decide (s.port.mode ≠ .draining) && _) = _
      rw [decide_eq_true running, Bool.true_and]
      rfl
    rw [offerRefresh_offered refreshes, unqueued, if_neg Bool.false_ne_true, absent, if_neg Bool.false_ne_true, stored]
    dsimp only
    unfold State.offerValue
    rw [unqueued, if_neg Bool.false_ne_true, room]
    by_cases fits : s.engine.waiting.length + 1 + s.unqueuedClaims + 1 ≤ 96
    · rw [if_pos fits, decide_eq_true fits, if_pos rfl, same]
      rfl
    · rw [if_neg fits, decide_eq_false fits, if_neg Bool.false_ne_true, same]
      rfl
  · rw [offerRefresh_waits refreshes (before := before) (w := w) (after := after) (by rw [same]; exact at') (isValue_of work) mine once]

/-- Settles O49. -/
theorem valueWritesVerifyOrFail : Obligations.ValueWritesVerifyOrFail := by
  intro s e i copy g p left h wf idle flight work cells noted
  have image : e.image.map (fun i => (i, g)) = some (i, g) := by
    rw [QueueEntry.image, work]
    rfl
  have found : (s.found { entry := e, step := .writeValue copy g, progress := p } (blankRecord.withCopy copy left)).copy copy =
      cells := by
    cases p with
    | verifying _ => rfl
    | erasing _ => exact Record.copy_withCopy_same _ _ _
    | erased _ => exact Record.copy_withCopy_same _ _ _
    | programming => exact Record.copy_withCopy_same _ _ _
  have ends : s.valueWriteComplete left = if (readValue cells).valid = some (i, g) then
        (s.read e.slot copy cells).valueWritten e.slot copy g (readValue cells).isCorrected
      else (if (readValue cells).isCorrected then (s.read e.slot copy cells).offerRefresh e.slot
        else s.read e.slot copy cells).valueFailed e := by
    unfold State.valueWriteComplete
    rw [State.stepping_flight idle flight]
    dsimp only
    rw [found, image, State.countCorrected_counted]
    rfl
  have record := fun y => State.record_onRecord e.slot y (fun r => r.withCopy copy cells) s wf
  have here := (record e.slot).trans (if_pos rfl)
  have away : ∀ y, y ≠ e.slot → (s.onRecord e.slot fun r => r.withCopy copy cells).record y = s.record y :=
    fun y other => (record y).trans (if_neg (Ne.symm other))
  have counts : (s.read e.slot copy cells).engine.corrected =
      if (readValue cells).isCorrected then min 65535 (s.engine.corrected + 1) else s.engine.corrected := by
    show (if (readValue cells).isCorrected.toNat = 0 then _ else _) = _
    cases (readValue cells).isCorrected <;> rfl
  by_cases verified : (readValue cells).valid = some (i, g)
  · have offered : (s.written e.slot copy g cells).offers
        ((s.read e.slot copy cells).valueWritten e.slot copy g (readValue cells).isCorrected) [e.slot] := by
      unfold State.valueWritten
      dsimp only
      split
      · exact .offerRefresh List.mem_cons_self _
      · exact .refl _ _
    obtain ⟨shape, store, corrected, port, attention, entries⟩ := written_refreshed offered
    have same := fun y => congrArg (recordAt · y) store
    refine ⟨_, done_event h (ends.trans (if_pos verified)), shape, (same e.slot).trans here, fun y other =>
      (same y).trans (away y other), corrected.trans counts, port, fun good => ?_, fun fails => absurd verified fails,
      fun weak d entry issued => ⟨attention, entries, fun draining => ?_, fun running => ?_⟩⟩
    · rw [good]
      exact ⟨rfl, rfl, rfl, rfl, rfl⟩
    · rw [weak]
      have dropped := offerRefresh_dropped (s := s.written e.slot copy g cells) (x := e.slot) fun refreshes =>
        refreshes.1 draining
      show ((s.written e.slot copy g cells).offerRefresh e.slot).engine.waiting = _
      rw [dropped]
      rfl
    · rw [weak]
      exact written_offerRefresh wf weak entry issued running
  · obtain ⟨ws, refreshed, quiet, offered⟩ := failedRefresh (s := s.read e.slot copy cells) flight (readValue cells).isCorrected
    obtain ⟨ws', entries, attention, failed, few, many⟩ := valueFailed_spec e { s.read e.slot copy cells with
      engine := { (s.read e.slot copy cells).engine with waiting := ws } }
    have fails := (ends.trans (if_neg verified)).trans ((congrArg (State.valueFailed e) refreshed).trans failed)
    refine ⟨_, done_event h fails, rfl, here, away, counts, .refl _,
      fun good => absurd (by rw [good]; rfl) verified, fun _ => ⟨rfl, rfl, fun retried => ?_, fun last => ?_⟩,
      fun good => absurd (by rw [good]; rfl) verified⟩
    · obtain ⟨attention, entries, alone, merged⟩ := few retried
      refine ⟨attention, entries, fun none => ?_, fun before w after at' value slot => ⟨fun quietly once => ?_,
        fun offers once => ?_⟩⟩
      · have same : ws = s.engine.waiting := quiet (.inr none)
        rw [same] at alone
        exact alone none
      · have same : ws = s.engine.waiting := quiet (.inl quietly)
        exact merged before w after (same.trans at') value slot once
      · exact merged before _ after (offered offers before w after at' value slot once) value slot fun v mem _ => once v mem
    · obtain ⟨kept, attention, entries⟩ := many last
      refine ⟨fun quietly => kept.trans (quiet quietly), fun offers before w after at' value slot once =>
        kept.trans (offered offers before w after at' value slot once), attention, ?_, entries⟩
      exact (congrArg Attention.storeFault attention).trans (raiseStoreFault_storeFault _ _ _)

end Sys2Proof.Machine
end

section
/-!
PROOFS. What the pin resets tear and clear (O51).
-/

namespace Sys2Proof.Machine

/-! ### Where a step is cut -/

/-- Where a reset cuts the step in flight: the granule it had come to, and whether that granule was then blank. -/
def State.cutPoint (s : State) (f : Flight) (cut : Cut) : Cut :=
  if s.engine.suspended then
    match f.progress with
    | .erasing g => { granule := g, leftBlank := false }
    | .erased g => { granule := g, leftBlank := true }
    | .programming => { cut with leftBlank := false }
    | .verifying _ => cut
  else cut

/-- What a tear leaves of the record in flight. -/
def State.tornRecord (s : State) (f : Flight) (cut : Cut) (r : Record) : Record :=
  match if s.engine.suspended then f.progress else f.step.reached f.progress (f.step.cutAt cut) with
  | .verifying _ => f.step.torn cut r
  | q => f.step.cells q r

theorem State.tear_flight {s : State} {f : Flight} (flight : s.engine.flight = some f) (cut : Cut) :
    s.tear cut = s.onRecord f.entry.slot (s.tornRecord f cut) := by
  unfold State.tear
  rw [flight]
  rfl

theorem State.tear_rest (s : State) (cut : Cut) : s.tear cut = { s with store := (s.tear cut).store } := by
  unfold State.tear
  split <;> rfl

/-- A step is never cut in its verify by `Cut`: it has come no further than its program (log 11). -/
theorem FlightStep.place_cutAt (step : FlightStep) (cut : Cut) : (step.clip (step.cutAt cut)).place < 7 := by
  obtain ⟨g, blank⟩ := cut
  cases step with
  | writeValue copy gen => cases blank <;> cases copy <;> exact Nat.le_of_ble_eq_true rfl
  | issueErase => cases blank <;> cases g <;> decide
  | issueIdentity => cases blank <;> exact Nat.le_of_ble_eq_true rfl
  | issueCopyA => cases blank <;> exact Nat.le_of_ble_eq_true rfl
  | erase => cases blank <;> cases g <;> decide

/-- A step that had come to its verify is cut there. -/
theorem FlightStep.reached_verifying (step : FlightStep) (cut : Cut) (left : Record) :
    step.reached (.verifying left) (step.cutAt cut) = .verifying left :=
  if_neg (not_lt.2 (Nat.le_of_lt_succ ((step.place_cutAt cut).trans (Nat.lt_succ_self 7))))

/-- A step at its beginning is cut where the operand says. -/
theorem FlightStep.reached_first (step : FlightStep) (cut : Cut) :
    step.reached step.first (step.cutAt cut) = step.cutAt cut := by
  obtain ⟨g, blank⟩ := cut
  cases step with
  | writeValue copy gen => cases blank <;> cases copy <;> rfl
  | issueErase => cases blank <;> cases g <;> rfl
  | issueIdentity => cases blank <;> rfl
  | issueCopyA => cases blank <;> rfl
  | erase => cases blank <;> cases g <;> rfl

/-! ### What is left of the record -/

section
variable {s : State} {f : Flight} (cut : Cut)

/-- Where a step stands that is known to be at its beginning, in its verify, or suspended. -/
def State.cutKnown (s : State) (f : Flight) : Prop :=
  s.engine.suspended = true ∨ f.progress = f.step.first ∨ ∃ left, f.progress = .verifying left

/-- A step that writes a granule leaves it bad or blank, and nothing else. -/
theorem tornRecord_target {g : GranuleName} (target : f.step.target = some g) (known : s.cutKnown f) (r : Record) :
    s.tornRecord f cut r = r.unset g (s.cutPoint f cut).leftBlank := by
  have cells : ∀ p, f.step.cells p r = match p with
      | .erasing _ => r.unset g false
      | .erased _ => r.unset g true
      | .programming => r.unset g false
      | .verifying left => r.take g left := fun p => by
    unfold FlightStep.cells
    rw [target]
    cases p <;> rfl
  have torn : f.step.torn cut r = r.unset g cut.leftBlank := by
    unfold FlightStep.torn
    rw [target]
  unfold State.tornRecord State.cutPoint
  by_cases suspended : s.engine.suspended = true
  · rw [if_pos suspended, if_pos suspended]
    cases f.progress with
    | erasing _ => exact cells _
    | erased _ => exact cells _
    | programming => exact cells _
    | verifying _ => exact torn
  · rw [if_neg suspended, if_neg suspended]
    obtain first | ⟨left, verifying⟩ := known.resolve_left suspended
    · rw [first, FlightStep.reached_first]
      unfold FlightStep.cutAt
      cases blank : cut.leftBlank with
      | true =>
        rw [if_pos rfl]
        have clip : f.step.clip (.erased cut.granule) = .erased g := by
          unfold FlightStep.clip
          rw [target]
        rw [clip]
        exact cells _
      | false =>
        rw [if_neg Bool.false_ne_true, if_pos (by rw [target]; rfl)]
        exact cells _
    · rw [verifying, FlightStep.reached_verifying]
      exact torn

/-- A step that erases a slot leaves the granules blank up to where it stood. -/
theorem tornRecord_erase (target : f.step.target = none) (known : s.cutKnown f)
    (clip : f.step.clip f.progress = f.progress) (r : Record) :
    s.tornRecord f cut r = r.erasedTo (s.cutPoint f cut).granule (s.cutPoint f cut).leftBlank := by
  have erasing : ∀ g, f.step.cells (.erasing g) r = r.erasedTo g false := fun g => by
    unfold FlightStep.cells
    rw [target]
  have erased : ∀ g, f.step.cells (.erased g) r = r.erasedTo g true := fun g => by
    unfold FlightStep.cells
    rw [target]
  have torn : f.step.torn cut r = r.erasedTo cut.granule cut.leftBlank := by
    unfold FlightStep.torn
    rw [target]
  unfold State.tornRecord State.cutPoint
  by_cases suspended : s.engine.suspended = true
  · rw [if_pos suspended, if_pos suspended]
    cases at' : f.progress with
    | erasing g => exact erasing g
    | erased g => exact erased g
    | programming =>
      rw [at'] at clip
      unfold FlightStep.clip at clip
      rw [target] at clip
      nomatch clip
    | verifying _ => exact torn
  · rw [if_neg suspended, if_neg suspended]
    obtain first | ⟨left, verifying⟩ := known.resolve_left suspended
    · rw [first, FlightStep.reached_first]
      unfold FlightStep.cutAt
      cases blank : cut.leftBlank with
      | true =>
        rw [if_pos rfl]
        have clip : f.step.clip (.erased cut.granule) = .erased cut.granule := by
          unfold FlightStep.clip
          rw [target]
        rw [clip]
        exact erased _
      | false =>
        rw [if_neg Bool.false_ne_true, if_neg (by rw [target]; nofun)]
        exact erasing _
    · rw [verifying, FlightStep.reached_verifying]
      exact torn

end

/-- A granule torn by a reset: bad, or blank where it had been erased. -/
theorem erasedTo_granules (r : Record) (g : GranuleName) (blank : Bool) :
    (g = .identity → (r.erasedTo g blank).identity = (if blank then .blank else .damaged) ∧
      (r.erasedTo g blank).copyA = r.copyA ∧ (r.erasedTo g blank).copyB = r.copyB) ∧
    (g = .copyA → (r.erasedTo g blank).identity = .blank ∧
      (r.erasedTo g blank).copyA = (if blank then .blank else .damaged) ∧ (r.erasedTo g blank).copyB = r.copyB) ∧
    (g = .copyB → (r.erasedTo g blank).identity = .blank ∧ (r.erasedTo g blank).copyA = .blank ∧
      (r.erasedTo g blank).copyB = (if blank then .blank else .damaged)) := by
  refine ⟨?_, ?_, ?_⟩
  all_goals
    rintro rfl
    exact ⟨rfl, rfl, rfl⟩

/-- A pin reset keeps the array, the pins and the waiting commands, but for the step that it tears. -/
theorem pinReset_eq (s : State) (cut : Cut) (change : Pins → Pins) : s.pinReset cut change =
    { State.reset with store := (s.tear cut).store, pins := change s.pins, moments := s.moments, pending := s.pending } := by
  unfold State.pinReset
  rw [State.tear_rest]
  rfl

/-- Settles O51. -/
theorem pinResetsTearAndClear : Obligations.PinResetsTearAndClear := by
  intro s cut wf sound after
  obtain ⟨-, -, flights, -⟩ := sound
  have resets : ∀ (c : Instr) (change : Pins → Pins), exec c s = .next (s.pinReset cut change) → after c (change s.pins) := by
    intro c change next
    refine ⟨s.pinReset cut change, next, pinReset_eq s cut change, fun none => ?_, fun f flight => ?_⟩
    · rw [pinReset_eq]
      show (s.tear cut).store = s.store
      unfold State.tear
      rw [none]
    · have record : ∀ y, (s.pinReset cut change).record y =
          if f.entry.slot = y then s.tornRecord f cut (s.record f.entry.slot) else s.record y := fun y => by
        rw [pinReset_eq]
        show (s.tear cut).record y = _
        rw [State.tear_flight flight]
        exact State.record_onRecord f.entry.slot y _ s wf
      have here := (record f.entry.slot).trans (if_pos rfl)
      refine ⟨fun y away => (record y).trans (if_neg (Ne.symm away)), fun known => ⟨fun copy g step => ?_, fun erases => ?_,
        fun step => ?_, fun step => ?_⟩⟩
      · rw [here, tornRecord_target cut (g := copy.granule) (by rw [step]; rfl) known]
        cases copy <;> exact ⟨rfl, rfl, rfl⟩
      · rw [here, tornRecord_erase cut (by obtain step | step := erases <;> rw [step] <;> rfl) known (flights f flight).2.2]
        exact erasedTo_granules _ _ _
      · rw [here, tornRecord_target cut (g := .identity) (by rw [step]; rfl) known]
        exact ⟨rfl, rfl, rfl⟩
      · rw [here, tornRecord_target cut (g := .copyA) (by rw [step]; rfl) known]
        exact ⟨rfl, rfl, rfl⟩
  refine ⟨resets _ (fun p => { p with supply := .rising }) rfl,
    resets _ (fun p => { p with supply := .absent }) rfl, fun supplied => resets _ (fun p => { p with resetn := true }) ?_, fun absent => ?_⟩
  · exact congrArg Host.Outcome.next (if_neg supplied)
  · exact congrArg Host.Outcome.next (if_pos absent)

end Sys2Proof.Machine
end

section
/-!
PROOFS. Lines enabled one after another, and the start-up (O52).
-/

namespace Sys2Proof.Machine

/-! ### A position prepared -/

/-- A position of a line being enabled (R40). -/
def Position.prepared (c : Position) : Position :=
  if c.state = .off ∧ c.enabled = true then { c with state := .vacant, highHalf := none, silentCount := 0, lastClass := .none }
  else { c with silentCount := 0, lastClass := .none }

theorem preparePosition_ctx (p : Pos) (s : State) (current : (s.ctx p).order = (s.ctx p).currentOrder) :
    (s.preparePosition p).ctx p = (s.ctx p).prepared := by
  unfold State.preparePosition Position.prepared
  dsimp only
  rw [State.ctx_onCtx_same]
  by_cases turns : (s.ctx p).state = .off ∧ (s.ctx p).enabled = true
  · have shown : (s.ctx p).order = { verdict := .none, warn := false, shown := 0 } := by
      rw [current, Position.currentOrder, turns.1]
    rw [if_pos turns, if_pos turns, State.leaveOff, State.ctx_onCtx_same]
    exact congrArg (fun o => ({ s.ctx p with
      state := .vacant, silentCount := 0, highHalf := none, lastClass := .none, order := o } : Position)) shown.symm
  · rw [if_neg turns, if_neg turns]
    exact congrArg (fun o => ({ s.ctx p with silentCount := 0, lastClass := .none, order := o } : Position)) current.symm

theorem forPositions_rest {f : Pos → State → State} (h : ∀ p s, f p s = { s with positions := (f p s).positions })
    (ps : List Pos) (s : State) : forPositions ps f s = { s with positions := (forPositions ps f s).positions } := by
  induction ps generalizing s with
  | nil => rfl
  | cons p ps ih =>
    have tail := ih (f p s)
    rw [h p s] at tail
    rw [show forPositions (p :: ps) f s = forPositions ps f (f p s) from rfl, h p s]
    exact tail

theorem preparePosition_rest (p : Pos) (s : State) :
    s.preparePosition p = { s with positions := (s.preparePosition p).positions } := by
  unfold State.preparePosition
  dsimp only
  split <;> rfl

/-! ### A line enabled -/

theorem nodup_positionsOf : ∀ l : LineIx, (positionsOf l).Nodup := by decide

/-- A frame shows the orders of its own line's positions. -/
theorem cycleFrame_congr {s t : State} {l : LineIx} (same : ∀ p, lineOf p = l → t.ctx p = s.ctx p) (count : BitVec 4) :
    t.cycleFrame l count = s.cycleFrame l count := by
  have bits : ∀ k, t.orderBits l k = s.orderBits l k := fun k => by
    unfold State.orderBits
    rw [same _ (Upholds.lineOf_posOf l k)]
  unfold State.cycleFrame State.frameBody
  simp only [bits]

/-- A line after ENABLE LINE, with the frame that it sends (R40, R45). -/
def Line.enabled (frame : BitVec 183) (c : Line) : Line :=
  { c with
    state := .blanking, count := 0, cycle := c.held, phase := .sending frame, receiver := none, record := .noStart }

/-- The lines `ls` have been enabled, and nothing else has changed. -/
structure State.enables (s t : State) (ls : List LineIx) : Prop where
  rest : t = { s with lines := t.lines, positions := t.positions }
  line : ∀ l ∈ ls, t.line l = (s.line l).enabled (t.cycleFrame l 0)
  otherLine : ∀ l, l ∉ ls → t.line l = s.line l
  ctx : ∀ p, lineOf p ∈ ls → t.ctx p = (s.ctx p).prepared
  otherCtx : ∀ p, lineOf p ∉ ls → t.ctx p = s.ctx p

theorem enableLine_enables {s : State} {l : LineIx} (stopped : (s.line l).driven = false)
    (current : ∀ p, lineOf p = l → (s.ctx p).order = (s.ctx p).currentOrder) : s.enables (s.enableLine l) [l] := by
  obtain ⟨ps, rest⟩ : ∃ ps, forPositions (positionsOf l) State.preparePosition s = { s with positions := ps } :=
    ⟨_, forPositions_rest preparePosition_rest (positionsOf l) s⟩
  have lines : ∀ m, (forPositions (positionsOf l) State.preparePosition s).line m = s.line m := fun m => by
    rw [rest]
    rfl
  have ctx : ∀ p, lineOf p = l →
      (forPositions (positionsOf l) State.preparePosition s).ctx p = (s.ctx p).prepared := fun p on =>
    forPositions_ctx (P := fun c d => c.order = c.currentOrder → d = c.prepared) preparePosition_ctx
      Upholds.preparePosition_others (nodup_positionsOf l) ((Upholds.mem_positionsOf p l).2 on) s (current p on)
  have enabled : s.enableLine l = (forPositions (positionsOf l) State.preparePosition s).openCycle l 0 .blanking :=
    if_neg (by rw [stopped]; nofun)
  have others : ∀ p, lineOf p ≠ l → (forPositions (positionsOf l) State.preparePosition s).ctx p = s.ctx p := fun p off =>
    Upholds.forPositions_other Upholds.preparePosition_others (fun mem => off ((Upholds.mem_positionsOf p l).1 mem)) s
  rw [enabled]
  generalize forPositions (positionsOf l) State.preparePosition s = u at *
  refine ⟨?_, fun m mem => ?_, fun m away => ?_, fun p on => ctx p (List.mem_singleton.1 on), fun p off =>
    others p fun on => off (List.mem_singleton.2 on)⟩
  · rw [rest]
    rfl
  · cases List.mem_singleton.1 mem
    refine (State.line_onLine l l _ _).trans ((if_pos rfl).trans ?_)
    rw [lines]
    rfl
  · exact (State.line_onLine l m _ _).trans ((if_neg fun e => away (List.mem_singleton.2 e.symm)).trans (lines m))

theorem State.enables.cons {s t u : State} {m : LineIx} {ls : List LineIx} (h : s.enables t [m]) (k : t.enables u ls)
    (once : m ∉ ls) : s.enables u (m :: ls) := by
  have apart : ∀ {l}, l ∈ ls → l ∉ [m] := fun {l} mem same => once (List.mem_singleton.1 same ▸ mem)
  refine ⟨?_, fun l mem => ?_, fun l away => ?_, fun p on => ?_, fun p off => ?_⟩
  · rw [k.rest, h.rest]
  · obtain rfl | mem := List.mem_cons.1 mem
    · rw [k.otherLine l once, h.line l (List.mem_singleton.2 rfl),
        cycleFrame_congr (s := t) (t := u) fun p on => k.otherCtx p (on ▸ once)]
    · rw [k.line l mem, h.otherLine l (apart mem)]
  · rw [k.otherLine l fun mem => away (List.mem_cons_of_mem _ mem), h.otherLine l fun same =>
      away (List.mem_cons.2 (.inl (List.mem_singleton.1 same)))]
  · obtain same | mem := List.mem_cons.1 on
    · rw [k.otherCtx p (same ▸ once), h.ctx p (List.mem_singleton.2 same)]
    · rw [k.ctx p mem, h.otherCtx p (apart mem)]
  · rw [k.otherCtx p fun mem => off (List.mem_cons_of_mem _ mem), h.otherCtx p fun same =>
      off (List.mem_cons.2 (.inl (List.mem_singleton.1 same)))]

theorem enableLines_enables {ls : List LineIx} (once : ls.Nodup) {s : State} (stopped : ∀ l ∈ ls, (s.line l).driven = false)
    (current : s.ordersCurrent) : s.enables (ls.foldl (fun t l => t.enableLine l) s) ls := by
  suffices ∀ s : State, (∀ l ∈ ls, (s.line l).driven = false) → (∀ p, lineOf p ∈ ls → (s.ctx p).order = (s.ctx p).currentOrder) →
      s.enables (ls.foldl (fun t l => t.enableLine l) s) ls from this s stopped fun p _ => current p
  clear stopped current s
  induction ls with
  | nil => exact fun s _ _ => ⟨rfl, nofun, fun _ _ => rfl, nofun, fun _ _ => rfl⟩
  | cons m ls ih =>
    intro s stopped current
    obtain ⟨away, once⟩ := List.nodup_cons.1 once
    have apart : ∀ {l}, l ∈ ls → l ∉ [m] := fun {l} mem same => away (List.mem_singleton.1 same ▸ mem)
    have first := enableLine_enables (stopped m List.mem_cons_self) fun p on => current p (on ▸ List.mem_cons_self)
    refine first.cons (ih once _ (fun l mem => ?_) fun p on => ?_) away
    · rw [first.otherLine l (apart mem)]
      exact stopped l (List.mem_cons_of_mem _ mem)
    · rw [first.otherCtx p (apart on)]
      exact current p (List.mem_cons_of_mem _ on)

/-! ### The start-up -/

/-- The rebuild asks at once for its read where the engine is idle. -/
theorem rebuildAsks_idle {s : State} {r : Rebuild} (rebuild : s.dir.rebuild = some r) (reading : s.engine.reading = none)
    (flight : s.engine.flight = none) :
    s.rebuildAsks = { s with engine := { s.engine with reading := some r.request } } := by
  have rests : s.suspend = s := by
    unfold State.suspend
    rw [flight]
    rfl
  unfold State.rebuildAsks State.requestRead
  rw [rebuild]
  dsimp only
  rw [reading, if_neg (by nofun), if_neg (by nofun), rests]
  rfl

/-- What a start-up makes of a part that is in reset (R181). -/
theorem startUp_spec {s : State} (orders : s.ordersCurrent) (idle : s.engine.idle) (stopped : ∀ l, (s.line l).driven = false) :
    s.startUp = { s with
      lines := s.startUp.lines, positions := s.startUp.positions
      dir := { s.dir with rebuild := some { slot := 0, stage := .identity } }
      engine := { s.engine with reading := some { who := .rebuild, slot := 0, granule := .identity } }
      port := { s.port with mode := .starting } } ∧
    (∀ l, s.startUp.line l = (s.line l).enabled (s.startUp.cycleFrame l 0)) ∧ ∀ p, s.startUp.ctx p = (s.ctx p).prepared := by
  obtain ⟨reading, -, flight, -⟩ := idle
  have enables := enableLines_enables (ls := allLines) (by decide) (s := s.onPort fun p => { p with mode := .starting })
    (fun l _ => stopped l) orders
  have all : ∀ l : LineIx, l ∈ allLines := by decide
  unfold State.startUp
  generalize allLines.foldl (fun t l => t.enableLine l) (s.onPort fun p => { p with mode := .starting }) = u at *
  have rest := enables.rest
  have asks : (u.rebuildAt 0 .identity).rebuildAsks = { u with
      dir := { u.dir with rebuild := some { slot := 0, stage := .identity } }
      engine := { u.engine with reading := some { who := .rebuild, slot := 0, granule := .identity } } } :=
    rebuildAsks_idle (s := u.rebuildAt 0 .identity) rfl (by rw [rest]; exact reading) (by rw [rest]; exact flight)
  rw [asks]
  refine ⟨?_, fun l => enables.line l (all l), fun p => enables.ctx p (all _)⟩
  rw [rest]
  rfl

/-- Settles O52. -/
theorem theStartUpBegins : Obligations.TheStartUpBegins := by
  intro s orders directory starts deasserted valid
  have leaves : ∀ pins : Pins, s.pins.released = false → ∃ t, ({ s with pins := pins } : State).startUp = t ∧
      t = { s with
        lines := t.lines, positions := t.positions, pins := pins, port := { s.port with mode := .starting }
        dir := { s.dir with rebuild := some { slot := 0, stage := .identity } }
        engine := { s.engine with reading := some { who := .rebuild, slot := 0, granule := .identity } } } ∧
      (∀ l, t.line l = (s.line l).enabled (t.cycleFrame l 0)) ∧ ∀ p, t.ctx p = (s.ctx p).prepared := fun pins reset =>
    have ⟨_, _, _, idle, stopped⟩ := directory.asleep (.inl reset)
    ⟨_, rfl, startUp_spec (s := { s with pins := pins }) orders idle stopped⟩
  refine ⟨fun asserted => ⟨fun supplied => ?_, fun away => ?_⟩, fun rising => ⟨fun high => ?_, fun low => ?_⟩, fun high => ?_,
    fun away => ?_, fun listens => ⟨fun mode => ?_, fun mode => ?_, fun mode => ?_⟩⟩
  · have reset : s.pins.released = false := by
      unfold Pins.released
      rw [asserted, Bool.not_true, Bool.and_false]
    obtain ⟨t, begun, spec⟩ := leaves deasserted reset
    refine ⟨t, congrArg Host.Outcome.next ((if_pos asserted).trans (Eq.trans (if_pos ?_) begun)), spec⟩
    show (decide (s.pins.supply = .valid) && true) = true
    rw [supplied]
    rfl
  · refine congrArg Host.Outcome.next ((if_pos asserted).trans (if_neg ?_))
    show ¬(decide (s.pins.supply = .valid) && true) = true
    rw [decide_eq_false away]
    nofun
  · have reset : s.pins.released = false := by
      unfold Pins.released
      rw [rising]
      rfl
    obtain ⟨t, begun, spec⟩ := leaves valid reset
    refine ⟨t, congrArg Host.Outcome.next ((if_pos rising).trans (Eq.trans (if_pos ?_) begun)), spec⟩
    show (decide (Supply.valid = .valid) && !s.pins.resetn) = true
    rw [high]
    rfl
  · refine congrArg Host.Outcome.next ((if_pos rising).trans (if_neg ?_))
    show ¬(decide (Supply.valid = .valid) && !s.pins.resetn) = true
    rw [low]
    nofun
  · exact congrArg Host.Outcome.next (if_neg (by rw [high]; nofun))
  · exact congrArg Host.Outcome.next (if_neg away)
  · obtain ⟨-, -, -, idle, stopped⟩ := directory.asleep (.inr mode)
    obtain ⟨rest, lines, positions⟩ := startUp_spec (s := s.taken) orders idle stopped
    have next : exec .resetLeave s = .next (s.taken.startUp.answer .ok 0) := done_takeFrame listens (by
      rw [show s.taken.port.mode = .inReset from mode])
    generalize s.taken.startUp = u at *
    refine ⟨u.answer .ok 0, next, ?_, lines, positions⟩
    rw [rest]
    rfl
  · refine done_takeFrame listens ?_
    rw [show s.taken.port.mode = .draining from mode]
    rfl
  · refine done_takeFrame listens ?_
    obtain mode | mode := mode
    · rw [show s.taken.port.mode = .running from mode]
      rfl
    · rw [show s.taken.port.mode = .starting from mode]
      rfl

end Sys2Proof.Machine
end

section
/-!
PROOFS. Claims settled and released: what the queue, the directory and the positions then hold.
-/

namespace Sys2Proof.Machine

/-! ### What settlements change -/

theorem Port.onlyMarked.of_result_none {p q : Port} (h : p.onlyMarked q) (none : p.result = .none) : q = p := by
  obtain ⟨same, marks⟩ := h
  obtain kept | ⟨a, waits, -⟩ := marks
  · rw [same, kept]
  · rw [none] at waits
    nomatch waits

theorem State.offers.onlySettles {s t : State} {xs : List Slot} (h : s.offers t xs) : s.onlySettles t xs := by
  have rest := h.rest
  have entries : t.dir.entries = s.dir.entries := by rw [rest]
  exact {
    store := by rw [rest], settings := by rw [rest], pins := by rw [rest], moments := by rw [rest]
    pending := by rw [rest], tariff := by rw [rest], engine := by rw [rest], waiting := h.waiting
    dir := by rw [rest], claims := h.claims, entries := by rw [entries], claimed := by rw [entries]
    mask := by rw [rest], mode := by rw [rest], takings := by rw [rest] }

theorem away_of_wider {xs ys : List Slot} (within : ∀ x ∈ xs, x ∈ ys) (x : Slot) (away : decide (x ∉ ys) = true) :
    decide (x ∉ xs) = true :=
  decide_eq_true fun mem => absurd (within x mem) (of_decide_eq_true away)

namespace State.onlyQueues

theorem refl (s : State) (xs : List Slot) : s.onlyQueues s xs :=
  ⟨rfl, rfl, rfl, rfl, rfl, rfl, rfl, rfl, rfl, rfl, rfl, rfl, rfl, rfl⟩

theorem mono {s t : State} {xs ys : List Slot} (h : s.onlyQueues t xs) (within : ∀ x ∈ xs, x ∈ ys) : s.onlyQueues t ys :=
  { h with
    waiting := filter_narrower (fun e : QueueEntry => away_of_wider within e.slot) h.waiting
    claimed := filter_narrower (fun e : DirEntry => away_of_wider within e.slot) h.claimed }

theorem trans {s t u : State} {xs : List Slot} (h : s.onlyQueues t xs) (k : t.onlyQueues u xs) : s.onlyQueues u xs where
  store := k.store.trans h.store
  settings := k.settings.trans h.settings
  pins := k.pins.trans h.pins
  moments := k.moments.trans h.moments
  pending := k.pending.trans h.pending
  tariff := by rw [k.tariff, h.tariff]
  engine := by rw [k.engine, h.engine]
  waiting := k.waiting.trans h.waiting
  dir := by rw [k.dir, h.dir]
  claims := k.claims.trans h.claims
  entries := k.entries.trans h.entries
  claimed := k.claimed.trans h.claimed
  mask := k.mask.trans h.mask
  mode := k.mode.trans h.mode

/-- A waiting entry of another record stands as it was. -/
theorem queues {s t : State} {xs : List Slot} (h : s.onlyQueues t xs) {x : Slot} (away : x ∉ xs) {i : Image}
    (waits : s.queues x i) : t.queues x i := by
  obtain ⟨e, mem, slot, work⟩ := waits
  have kept : e ∈ t.engine.waiting.filter fun e => decide (e.slot ∉ xs) := by
    rw [h.waiting]
    exact List.mem_filter.2 ⟨mem, decide_eq_true (slot ▸ away)⟩
  exact ⟨e, (List.mem_filter.1 kept).1, slot, work⟩

/-- No other record is claimed anew. -/
theorem free {s t : State} {xs : List Slot} (h : s.onlyQueues t xs) {x : Slot} (away : x ∉ xs) (unclaimed : s.free x) :
    t.free x := by
  intro e mem slot
  have kept : e ∈ s.dir.entries.filter fun e => decide (e.slot ∉ xs) := by
    rw [← h.claimed]
    exact List.mem_filter.2 ⟨mem, decide_eq_true (slot ▸ away)⟩
  exact unclaimed e (List.mem_filter.1 kept).1 slot

end State.onlyQueues

namespace State.onlySettles

theorem refl (s : State) (xs : List Slot) : s.onlySettles s xs := ⟨.refl s xs, rfl⟩

theorem mono {s t : State} {xs ys : List Slot} (h : s.onlySettles t xs) (within : ∀ x ∈ xs, x ∈ ys) : s.onlySettles t ys :=
  ⟨h.toonlyQueues.mono within, h.takings⟩

theorem trans {s t u : State} {xs : List Slot} (h : s.onlySettles t xs) (k : t.onlySettles u xs) : s.onlySettles u xs :=
  ⟨h.toonlyQueues.trans k.toonlyQueues, k.takings.trans h.takings⟩

/-- Neither the port, nor the lines, nor the positions are of it. -/
theorem aside {s t : State} {xs : List Slot} (h : s.onlySettles t xs) (lines : Vector Line 6) (positions : Vector Position 48)
    (port : Port) : s.onlySettles { t with lines := lines, positions := positions, port := port } xs := { h with }

end State.onlySettles

/-! ### A claim handed back -/

/-- The record of a slot is settled with an image and released (R69, R71). -/
def State.handBack (x : Slot) (i : Image) (s : State) : State := (s.offerSettlement x i).release x

section
variable (x : Slot) (i : Image) (s : State)

theorem offerSettlement_queues : (s.offerSettlement x i).queues x i := by
  unfold State.offerSettlement
  split
  · next waits =>
    obtain ⟨e, mem, mine⟩ := List.any_eq_true.1 waits
    obtain ⟨value, slot⟩ := (valueOf_iff x e).1 mine
    exact ⟨_, List.mem_map_of_mem mem, by rw [if_pos ⟨value, slot⟩]; exact slot, by rw [if_pos ⟨value, slot⟩]⟩
  · exact ⟨_, List.mem_append_right _ (List.mem_singleton.2 rfl), rfl, rfl⟩

theorem release_free : (s.release x).free x := by
  intro e mem slot
  obtain ⟨d, -, rfl⟩ := List.mem_map.1 mem
  dsimp only at slot ⊢
  by_cases mine : d.slot = x
  · rw [if_pos mine]
  · rw [if_neg mine] at slot
    exact absurd slot mine

theorem release_onlySettles : s.onlySettles (s.release x) [x] :=
  { (State.onlySettles.refl s [x]) with
    dir := rfl
    entries := by
      show (s.dir.entries.map _).map _ = _
      rw [List.map_map]
      refine List.map_congr_left fun e _ => ?_
      show DirEntry.unclaimed (if e.slot = x then _ else e) = _
      split <;> rfl
    claimed := by
      refine filter_map_kept (fun e => ?_) (fun e away => if_neg fun mine => ?_) _
      · split <;> rfl
      · exact absurd (List.mem_singleton.2 mine) (of_decide_eq_true away) }

theorem handBack_onlySettles : s.onlySettles (s.handBack x i) [x] :=
  (State.offers.offerSettlement (List.mem_singleton.2 rfl) i s).onlySettles.trans (release_onlySettles x _)

theorem handBack_port : s.port.onlyMarked (s.handBack x i).port :=
  (State.offers.offerSettlement (List.mem_singleton.2 rfl) i s).port

theorem handBack_rest : (s.handBack x i).lines = s.lines ∧ (s.handBack x i).positions = s.positions ∧
    (s.handBack x i).attention = s.attention := by
  have rest := (State.offers.offerSettlement (x := x) (List.mem_singleton.2 rfl) i s).rest
  refine ⟨?_, ?_, ?_⟩
  · show (s.offerSettlement x i).lines = _
    rw [rest]
  · show (s.offerSettlement x i).positions = _
    rw [rest]
  · show (s.offerSettlement x i).attention = _
    rw [rest]

theorem handBack_ctx (p : Pos) : (s.handBack x i).ctx p = s.ctx p :=
  State.ctx_of_positions (handBack_rest x i s).2.1 p

end

/-! ### A position's claim ended -/

theorem State.withCtx_onCtx (s : State) (p : Pos) (c : Position) (f : Position → Position) :
    (s.withCtx p c).onCtx p f = s.withCtx p (f c).settled := by
  rw [State.onCtx_eq, State.ctx_withCtx_same, State.withCtx_withCtx]

theorem State.ctx_withCtx_other (s : State) {p q : Pos} (other : q ≠ p) (c : Position) : (s.withCtx p c).ctx q = s.ctx q :=
  Vector.getElem_set_ne p.isLt q.isLt fun e => other (Fin.ext e.symm)

theorem endClaim_eq {s : State} {p : Pos} {k : Claim} (held : (s.ctx p).claim = some k) (blocked : Bool) :
    s.endClaim p blocked =
      (s.handBack k.slot (k.settlement (s.ctx p).working blocked)).withCtx p (s.ctx p).dropClaim.settled := by
  unfold State.endClaim
  rw [held]
  show (s.handBack k.slot _).onCtx p _ = _
  rw [State.onCtx_eq, handBack_ctx]

/-- The card that a position holds is settled and released. -/
theorem handBack_settles {s : State} {p : Pos} (k : Claim) (c : Position) :
    s.settles ((s.handBack k.slot (k.settlement (s.ctx p).working false)).withCtx p c) p k c := by
  have rest := handBack_rest k.slot (k.settlement (s.ctx p).working false) s
  exact {
    only := (handBack_onlySettles _ _ s).aside _ _ _
    lines := rest.1
    positions := congrArg (fun v : Vector Position 48 => v.set p.val c p.isLt) rest.2.1
    port := handBack_port _ _ s
    attention := rest.2.2
    settled := offerSettlement_queues k.slot _ s
    free := release_free k.slot _ }

/-! ### Claims ended one after another -/

/-- Images have been queued, each for its own record, and with `released` the records released (R36, R69, R71, R175). -/
structure State.gives (released : Bool) (s t : State) (given : List (Slot × Image)) : Prop where
  only : s.onlySettles t (given.map Prod.fst)
  port : s.port.onlyMarked t.port
  queued : ∀ g ∈ given, t.queues g.1 g.2 ∧ (released = true → t.free g.1)

theorem State.gives.nil (released : Bool) (s : State) : s.gives released s [] := ⟨.refl s _, .refl _, nofun⟩

theorem State.gives.append {released : Bool} {s t u : State} {first last : List (Slot × Image)} (h : s.gives released t first)
    (k : t.gives released u last) (once : ∀ g ∈ first, g.1 ∉ last.map Prod.fst) : s.gives released u (first ++ last) where
  only := by
    rw [List.map_append]
    exact (h.only.mono fun _ => List.mem_append_left _).trans (k.only.mono fun _ => List.mem_append_right _)
  port := h.port.trans k.port
  queued g mem := by
    obtain early | late := List.mem_append.1 mem
    · have away := once g early
      exact ⟨k.only.queues away (h.queued g early).1, fun rel => k.only.free away ((h.queued g early).2 rel)⟩
    · exact k.queued g late

/-- Several agents settle in turn, each what it has to give where the others have left it alone. -/
theorem fold_gives {α : Type} {released : Bool} {f : α → State → State} {given : α → State → List (Slot × Image)}
    (each : ∀ a (s : State), ((given a s).map Prod.fst).Nodup → s.gives released (f a s) (given a s))
    (others : ∀ a b s, a ≠ b → given b (f a s) = given b s) {as : List α} (apart : as.Nodup) (s : State)
    (once : (as.flatMap fun a => (given a s).map Prod.fst).Nodup) :
    s.gives released (as.foldl (fun t a => f a t) s) (as.flatMap fun a => given a s) := by
  induction as generalizing s with
  | nil => exact .nil released s
  | cons a as ih =>
    obtain ⟨away, apart⟩ := List.nodup_cons.1 apart
    have same : ∀ b ∈ as, given b (f a s) = given b s := fun b mem => others a b s fun e => away (e ▸ mem)
    rw [List.flatMap_cons, List.nodup_append] at once
    obtain ⟨own, rest, disjoint⟩ := once
    have next := ih apart (f a s) (by
      rw [List.flatMap_congr fun b mem => by rw [same b mem]]
      exact rest)
    rw [List.flatMap_congr same] at next
    refine (each a s own).append next fun g mem later => ?_
    refine disjoint _ (List.mem_map_of_mem mem) g.1 ?_ rfl
    rw [← List.map_flatMap]
    exact later

/-- Several positions settle in turn, each from its own context. -/
theorem forPositions_gives {released : Bool} {f : Pos → State → State} {given : Position → List (Slot × Image)}
    (each : ∀ p (s : State), s.gives released (f p s) (given (s.ctx p)))
    (others : ∀ p q (s : State), p ≠ q → (f p s).ctx q = s.ctx q) {ps : List Pos} (apart : ps.Nodup) (s : State)
    (once : (ps.flatMap fun p => (given (s.ctx p)).map Prod.fst).Nodup) :
    s.gives released (forPositions ps f s) (ps.flatMap fun p => given (s.ctx p)) :=
  fold_gives (given := fun p s => given (s.ctx p)) (fun p s _ => each p s)
    (fun p q s other => congrArg given (others p q s other)) apart s once

theorem forPositions_same {β : Type} {f : Pos → State → State} (g : State → β) (h : ∀ p s, g (f p s) = g s) (ps : List Pos)
    (s : State) : g (forPositions ps f s) = g s := by
  induction ps generalizing s with
  | nil => rfl
  | cons p ps ih => exact (ih (f p s)).trans (h p s)

/-! ### The cards held are of different records -/

theorem mem_heldSlots (c : Position) (x : Slot) : x ∈ c.heldSlots ↔ ∃ k, c.claim = some k ∧ k.slot = x := by
  unfold Position.heldSlots
  rw [Option.mem_toList, Option.map_eq_some_iff]

theorem heldSlots_disjoint {s : State} (d : s.directorySound) {p q : Pos} (other : p ≠ q) {x : Slot}
    (first : x ∈ (s.ctx p).heldSlots) (second : x ∈ (s.ctx q).heldSlots) : False := by
  obtain ⟨k, held, slot⟩ := (mem_heldSlots _ x).1 first
  obtain ⟨m, held', slot'⟩ := (mem_heldSlots _ x).1 second
  obtain ⟨e, mem, at', claimed⟩ := d.claims p k held
  obtain ⟨e', mem', at'', claimed'⟩ := d.claims q m held'
  have slots : (s.dir.entries.map DirEntry.slot).Nodup := (List.nodup_append.1 (List.nodup_append.1 d.slots).1).1
  have same : e = e' := List.inj_on_of_nodup_map slots mem mem' (at'.trans (slot.trans (slot'.symm.trans at''.symm)))
  cases same
  exact other (Option.some_injective _ (claimed.symm.trans claimed'))

/-- What different positions give back is of different records. -/
theorem nodup_given {s : State} (d : s.directorySound) {given : Pos → List (Slot × Image)}
    (held : ∀ p, (given p).map Prod.fst = (s.ctx p).heldSlots ∨ given p = []) {ps : List Pos} (apart : ps.Nodup) :
    (ps.flatMap fun p => (given p).map Prod.fst).Nodup := by
  have within : ∀ p, ∀ x ∈ (given p).map Prod.fst, x ∈ (s.ctx p).heldSlots := fun p x mem => by
    obtain same | none := held p
    · exact same ▸ mem
    · rw [none] at mem
      nomatch mem
  refine List.nodup_flatMap.2 ⟨fun p _ => ?_, apart.imp fun {p q} other x first second =>
    heldSlots_disjoint d other (within _ x first) (within _ x second)⟩
  obtain same | none := held p
  · rw [same]
    unfold Position.heldSlots
    cases (s.ctx p).claim with
    | none => exact .nil
    | some k => exact List.nodup_singleton _
  · rw [none]
    exact .nil

/-! ### A position given up -/

/-- What a position gives back when its claim ends: its card's settlement. -/
def Position.given (c : Position) : List (Slot × Image) :=
  (c.claim.map fun k => (k.slot, k.settlement c.working false)).toList

theorem Position.given_slots (c : Position) : c.given.map Prod.fst = c.heldSlots := by
  unfold Position.given Position.heldSlots
  cases c.claim <;> rfl

theorem Position.mem_given {c : Position} {k : Claim} (held : c.claim = some k) :
    (k.slot, k.settlement c.working false) ∈ c.given := by
  unfold Position.given
  rw [held]
  exact List.mem_singleton.2 rfl

/-- A position once it has gone to OFF or LOST (R75, R77). -/
def Position.gone (target : PosState) (c : Position) : Position :=
  { c with
    claim := none
    claimBalance := if c.claim.isSome then 0 else c.claimBalance
    working := if c.claim.isSome then 0 else c.working
    debited := if c.claim.isSome then 0 else c.debited
    outstanding := c.outstanding.map fun o => { o with abandoned := true }
    refusedSerial := none, refusedVerdict := .none, refusedBalance := 0
    state := target, call := none, candidate := none, highHalf := none
    order := { verdict := .none, warn := false, shown := 0 } }

theorem Position.gone_of_none {c : Position} (none : c.claim = .none) {target : PosState}
    (away : target = .off ∨ target = .lost) : Position.settled { c.abandon.clearRefused with
      state := target, call := .none, candidate := .none, highHalf := .none } = c.gone target := by
  cases c
  cases none
  obtain rfl | rfl := away <;> rfl

theorem giveUp_eq {s : State} {p : Pos} {target : PosState} (away : target = .off ∨ target = .lost) :
    s.giveUp p target = (match (s.ctx p).claim with
      | none => s
      | some k => s.handBack k.slot (k.settlement (s.ctx p).working false)).withCtx p ((s.ctx p).gone target) := by
  unfold State.giveUp
  cases held : (s.ctx p).claim with
  | none => rw [State.ctx_endClaim_of_none held, State.onCtx_eq, Position.gone_of_none held away]
  | some k =>
    rw [endClaim_eq held, State.withCtx_onCtx, Position.gone, held]
    obtain rfl | rfl := away <;> rfl

theorem giveUp_gives {p : Pos} {target : PosState} (away : target = .off ∨ target = .lost) (s : State) :
    s.gives true (s.giveUp p target) (s.ctx p).given := by
  rw [giveUp_eq away]
  unfold Position.given
  cases (s.ctx p).claim with
  | none => exact ⟨(State.onlySettles.refl s []).aside _ _ _, .refl _, nofun⟩
  | some k =>
    exact ⟨(handBack_onlySettles _ _ s).aside _ _ _, handBack_port _ _ s, fun g mem => by
      cases List.mem_singleton.1 mem
      exact ⟨offerSettlement_queues k.slot _ s, fun _ => release_free k.slot _⟩⟩

theorem giveUp_ctx {s : State} {p : Pos} {target : PosState} (away : target = .off ∨ target = .lost) :
    (s.giveUp p target).ctx p = (s.ctx p).gone target := by
  rw [giveUp_eq away]
  exact State.ctx_withCtx_same _ _ _

theorem giveUp_rest {s : State} {p : Pos} {target : PosState} (away : target = .off ∨ target = .lost) :
    (s.giveUp p target).lines = s.lines ∧ (s.giveUp p target).attention = s.attention := by
  rw [giveUp_eq away]
  cases (s.ctx p).claim with
  | none => exact ⟨rfl, rfl⟩
  | some k => exact ⟨(handBack_rest _ _ s).1, (handBack_rest _ _ s).2.2⟩

/-! ### OFF -/

/-- A position that enters OFF from any other state (R77). -/
def Position.offGiven (c : Position) : List (Slot × Image) := if c.state = .off then [] else c.given

theorem enterOff_gives (p : Pos) (s : State) : s.gives true (s.enterOff p) (s.ctx p).offGiven := by
  unfold State.enterOff Position.offGiven
  split
  · exact .nil true s
  · exact giveUp_gives (.inl rfl) s

theorem enterOff_ctx (p : Pos) (s : State) :
    (s.enterOff p).ctx p = if (s.ctx p).state = .off then s.ctx p else (s.ctx p).gone .off := by
  unfold State.enterOff
  split
  · rfl
  · exact giveUp_ctx (.inl rfl)

theorem enterOff_rest (p : Pos) (s : State) : (s.enterOff p).lines = s.lines ∧ (s.enterOff p).attention = s.attention := by
  unfold State.enterOff
  split
  · exact ⟨rfl, rfl⟩
  · exact giveUp_rest (.inl rfl)

end Sys2Proof.Machine
end

section
/-!
PROOFS. A position taken OFF, a card blocked through its position, and PWRLOW (O23, O37, O53).
-/

namespace Sys2Proof.Machine

/-! ### DISABLE POSITION and RELEASE POSITION (O23) -/

theorem mark_eq {s : State} (orders : s.ordersCurrent) (p : Pos) (enabled : Bool) :
    s.mark p enabled = s.withCtx p { s.ctx p with enabled := enabled } := by
  rw [State.mark, State.onCtx_eq]
  exact congrArg (s.withCtx p) (Position.settled_enabled (orders p) enabled)

theorem State.withCtx_same (s : State) (p : Pos) : s.withCtx p (s.ctx p) = s :=
  congrArg (fun v => { s with positions := v }) (Vector.set_getElem_self p.isLt)

/-- The two frames take the position OFF, the first with its mark cleared. -/
theorem goesOff_next {s : State} (h : s.serves) (orders : s.ordersCurrent) (p : Pos) (release : Bool) :
    exec (if release then .releasePosition (BitVec.ofNat 20 (p.val + 1))
      else .disablePosition (BitVec.ofNat 20 (p.val + 1))) s =
    .next (((s.taken.withCtx p { s.ctx p with enabled := release && (s.ctx p).enabled }).enterOff p).answerPosition p) := by
  cases release with
  | false =>
    rw [show (false && (s.ctx p).enabled) = false from rfl, ← show (s.taken.ctx p) = s.ctx p from rfl,
      ← mark_eq (s := s.taken) orders]
    exact done_running h (onPosition p _ fun p => (s.taken.disablePosition p).answerPosition p)
  | true =>
    rw [Bool.true_and, show ({ s.ctx p with enabled := (s.ctx p).enabled } : Position) = s.taken.ctx p from rfl,
      State.withCtx_same]
    exact done_running h (onPosition p _ fun p => (s.taken.enterOff p).answerPosition p)

theorem Position.offGiven_slots (c : Position) : c.offGiven.map Prod.fst = if c.state = .off then [] else c.heldSlots := by
  unfold Position.offGiven
  split
  · rfl
  · exact c.given_slots

/-- Settles O23. -/
theorem positionsGoOff : Obligations.PositionsGoOff := by
  intro s p release h orders
  obtain ⟨c, there⟩ : ∃ c : Position, c = { s.ctx p with enabled := release && (s.ctx p).enabled } := ⟨_, rfl⟩
  have next := goesOff_next h orders p release
  rw [← there] at next
  have here : (s.taken.withCtx p c).ctx p = c := State.ctx_withCtx_same _ _ _
  obtain ⟨only, port, queued⟩ := enterOff_gives p (s.taken.withCtx p c)
  obtain ⟨lines, attention⟩ := enterOff_rest p (s.taken.withCtx p c)
  have ctx := enterOff_ctx p (s.taken.withCtx p c)
  have off : (((s.taken.withCtx p c).enterOff p).ctx p).state = .off := Upholds.enterOff_state p _
  rw [here] at only queued ctx
  rw [Position.offGiven_slots] at only
  have same : c.state = (s.ctx p).state ∧ c.heldSlots = (s.ctx p).heldSlots ∧ c.given = (s.ctx p).given := by
    rw [there]
    exact ⟨rfl, rfl, rfl⟩
  obtain ⟨state, slots, given⟩ := same
  rw [state, slots] at only
  refine ⟨_, next, ((State.onlySettles.refl s _).aside _ _ _ |>.trans only).aside _ _ _, attention, lines, ?_, fun q other =>
    (Upholds.enterOff_others p q _ other.symm).trans (State.ctx_withCtx_other _ other c), ?_, fun rests => ?_, fun on => ⟨?_, ?_⟩⟩
  · show ({ ((s.taken.withCtx p c).enterOff p).port with
      reply := { code := .ok, data := (((s.taken.withCtx p c).enterOff p).ctx p).state.code.setWidth 16 } } : Port) = _
    rw [off, port.of_result_none rfl]
    rfl
  · show (((s.taken.withCtx p c).enterOff p).ctx p).enabled = _
    rw [ctx]
    rw [there]
    split <;> rfl
  · show ((s.taken.withCtx p c).enterOff p).ctx p = { s.ctx p with enabled := (((s.taken.withCtx p c).enterOff p).ctx p).enabled }
    rw [ctx, if_pos (state.trans rests), there]
  · have gone : (((s.taken.withCtx p c).enterOff p).answerPosition p).ctx p = c.gone .off :=
      ctx.trans (if_neg fun off => on (state.symm.trans off))
    rw [gone, there]
    rfl
  · intro k held
    have gone : (((s.taken.withCtx p c).enterOff p).answerPosition p).ctx p = c.gone .off :=
      ctx.trans (if_neg fun off => on (state.symm.trans off))
    have claim : c.claim = some k := by
      rw [there]
      exact held
    have mem : (k.slot, k.settlement (s.ctx p).working false) ∈ c.offGiven := by
      rw [Position.offGiven, if_neg fun off => on (state.symm.trans off), given]
      exact Position.mem_given held
    obtain ⟨waits, free⟩ := queued _ mem
    refine ⟨waits, free rfl, ?_⟩
    rw [gone, Position.gone, claim]
    exact ⟨rfl, rfl, rfl⟩

/-! ### BLOCK through the position (O37) -/

/-- A position whose card the host has blocked (R110). -/
def Position.blockedOf (k : Claim) (c : Position) : Position :=
  let d := c.dropClaim.settled.takeRefusal k.serial .blocked
  match c.state with
  | .held => { d with state := .refused }
  | .metered | .grace | .cut => d.enterCut .cutBlocked
  | _ => d

theorem blockThrough_eq {s : State} {p : Pos} {k : Claim} (held : (s.ctx p).claim = some k) : s.blockThrough p =
    (s.handBack k.slot (k.settlement (s.ctx p).working true)).withCtx p ((s.ctx p).blockedOf k).settled := by
  unfold State.blockThrough
  rw [held]
  dsimp only
  rw [endClaim_eq held, State.withCtx_onCtx]
  rfl

/-- What the position shows of its blocked card. -/
theorem Position.blockedOf_spec (k : Claim) {c : Position} (card : c.state ∈ [PosState.held, .metered, .grace, .cut]) :
    (c.blockedOf k).settled.claim = none ∧ (c.blockedOf k).settled.working = 0 ∧ (c.blockedOf k).settled.debited = 0 ∧
    (c.blockedOf k).settled.claimBalance = 0 ∧ (c.blockedOf k).settled.refusedSerial = some k.serial ∧
    (c.blockedOf k).settled.refusedVerdict = .refusedBlocked ∧ (c.blockedOf k).settled.refusedBalance = 0 ∧
    (c.state = .held → (c.blockedOf k).settled.state = .refused ∧
      (c.blockedOf k).settled.order = { verdict := .refusedBlocked, warn := false, shown := 0 }) ∧
    (c.state ≠ .held → (c.blockedOf k).settled.state = .cut ∧ (c.blockedOf k).settled.call = none ∧
      (c.blockedOf k).settled.order = { verdict := .cutBlocked, warn := false, shown := 0 }) := by
  unfold Position.blockedOf
  simp only [List.mem_cons, List.not_mem_nil, or_false] at card
  obtain state | state | state | state := card
  · rw [state]
    exact ⟨rfl, rfl, rfl, rfl, rfl, rfl, rfl, fun _ => ⟨rfl, rfl⟩, fun other => absurd rfl other⟩
  all_goals
    rw [state]
    exact ⟨rfl, rfl, rfl, rfl, rfl, rfl, rfl, nofun, fun _ => ⟨rfl, rfl, rfl⟩⟩

/-- A latched action that is answered clears its latch, whatever else it has done. -/
theorem State.answerAction_port {s u : State} (same : u.port = s.taken.port) {kind : ActionKind}
    (latched : kind.isLatched = true) (code : ReplyCode) (data : Word) :
    (u.answerAction kind code data).port = s.port.answeredLatched code data := by
  have alike : (u.answerAction kind code data).port =
      (({ s.taken with port := u.port } : State).answerAction kind code data).port := rfl
  rw [alike, same, show ({ s.taken with port := s.taken.port } : State) = s.taken from rfl,
    State.taken_answerAction s latched]
  rfl

/-- Settles O37. -/
theorem blockOfAClaimedCard : Obligations.BlockOfAClaimedCard := by
  intro s e p k armed orders found unlocked claimed held slot card
  have through : s.taken.fromStepSix .block e .needed = (s.taken.blockThrough p).answerAction .block .ok 3 := by
    unfold State.fromStepSix
    rw [if_neg (by rintro ⟨h | h, -⟩ <;> nomatch h), if_pos rfl, claimed]
    rfl
  have next : exec .block s = .next ((s.taken.blockThrough p).answerAction .block .ok 3) :=
    (cardAction_next armed (kind := .block) rfl nofun).trans
      (congrArg Host.Outcome.next ((onUnlockedCard_found found unlocked _).trans through))
  have held' : (s.taken.ctx p).claim = some k := held
  rw [blockThrough_eq held'] at next
  obtain ⟨lines, positions, attention⟩ := handBack_rest k.slot (k.settlement (s.taken.ctx p).working true) s.taken
  have settles := handBack_onlySettles k.slot (k.settlement (s.taken.ctx p).working true) s.taken
  have port := (handBack_port k.slot (k.settlement (s.taken.ctx p).working true) s.taken).of_result_none rfl
  have ctx := fun q => handBack_ctx k.slot (k.settlement (s.taken.ctx p).working true) s.taken q
  have queued := offerSettlement_queues k.slot (k.settlement (s.taken.ctx p).working true) s.taken
  have free := release_free k.slot (s.taken.offerSettlement k.slot (k.settlement (s.taken.ctx p).working true))
  refine ⟨_, next, ((State.onlySettles.refl s _).aside _ _ _ |>.trans settles).aside _ _ _, attention, lines, ?_,
    fun q other => (State.ctx_withCtx_other _ other _).trans (ctx q), queued, free, ?_⟩
  · exact State.answerAction_port (u := State.withCtx p ((s.taken.ctx p).blockedOf k).settled
      (s.taken.handBack k.slot (k.settlement (s.taken.ctx p).working true))) port rfl .ok 3
  · have here := State.ctx_withCtx_same (s.taken.handBack k.slot (k.settlement (s.taken.ctx p).working true)) p
      ((s.taken.ctx p).blockedOf k).settled
    have shown := Position.blockedOf_spec k card
    rw [← show _ = ((s.ctx p).blockedOf k).settled from here] at shown
    exact shown

/-! ### PWRLOW (O53) -/

theorem checkpoint_eq {s : State} {p : Pos} {k : Claim} (held : (s.ctx p).claim = some k) : s.checkpoint p =
    (s.offerSettlement k.slot (k.settlement (s.ctx p).working false)).withCtx p
      (Position.settled { s.ctx p with debited := 0 }) := by
  unfold State.checkpoint
  rw [held]
  dsimp only
  rw [State.onCtx_eq, State.ctx_of_positions (State.offerSettlement_positions _ _ _)]

theorem checkpoint_none {s : State} {p : Pos} (none : (s.ctx p).claim = none) : s.checkpoint p = s := by
  unfold State.checkpoint
  rw [none]

theorem Position.settled_debited {c : Position} (h : c.order = c.currentOrder) (debited : Nat) :
    Position.settled { c with debited := debited } = { c with debited := debited } :=
  congrArg (fun o => { c with debited := debited, order := o }) h.symm

/-- A position after a checkpoint settlement. -/
def Position.checkpointed (c : Position) : Position := if c.claim.isSome then { c with debited := 0 } else c

theorem checkpoint_ctx (p : Pos) (s : State) (current : (s.ctx p).order = (s.ctx p).currentOrder) :
    (s.checkpoint p).ctx p = (s.ctx p).checkpointed := by
  cases held : (s.ctx p).claim with
  | none => rw [checkpoint_none held, Position.checkpointed, if_neg (by rw [held]; nofun)]
  | some k =>
    rw [checkpoint_eq held, State.ctx_withCtx_same, Position.settled_debited current, Position.checkpointed,
      if_pos (by rw [held]; rfl)]

theorem checkpoint_others (p q : Pos) (s : State) (other : p ≠ q) : (s.checkpoint p).ctx q = s.ctx q := by
  cases held : (s.ctx p).claim with
  | none => rw [checkpoint_none held]
  | some k =>
    rw [checkpoint_eq held, State.ctx_withCtx_other _ other.symm,
      State.ctx_of_positions (State.offerSettlement_positions _ _ _)]

theorem checkpoint_gives (p : Pos) (s : State) : s.gives false (s.checkpoint p) (s.ctx p).given := by
  unfold Position.given
  cases held : (s.ctx p).claim with
  | none =>
    rw [checkpoint_none held]
    exact .nil false s
  | some k =>
    rw [checkpoint_eq held]
    have offers := State.offers.offerSettlement (xs := [k.slot]) (List.mem_singleton.2 rfl)
      (k.settlement (s.ctx p).working false) s
    exact ⟨offers.onlySettles.aside _ _ _, offers.port, fun g mem => by
      cases List.mem_singleton.1 mem
      exact ⟨offerSettlement_queues k.slot _ s, nofun⟩⟩

theorem checkpoint_rest (p : Pos) (s : State) : (s.checkpoint p).dir.entries = s.dir.entries ∧
    (s.checkpoint p).lines = s.lines ∧ (s.checkpoint p).attention = s.attention := by
  cases held : (s.ctx p).claim with
  | none => rw [checkpoint_none held]; exact ⟨rfl, rfl, rfl⟩
  | some k =>
    have rest := (State.offers.offerSettlement (x := k.slot) (List.mem_singleton.2 rfl)
      (k.settlement (s.ctx p).working false) s).rest
    rw [checkpoint_eq held, rest]
    exact ⟨rfl, rfl, rfl⟩

theorem flatMap_given_slots (s : State) (ps : List Pos) :
    (ps.flatMap fun p => (s.ctx p).given).map Prod.fst = ps.flatMap fun p => (s.ctx p).heldSlots := by
  rw [List.map_flatMap]
  exact List.flatMap_congr fun p _ => (s.ctx p).given_slots

/-- Settles O53. -/
theorem pwrlowSettlesLiveClaims : Obligations.PwrlowSettlesLiveClaims := by
  intro s orders directory
  refine ⟨fun high => ?_, rfl⟩
  obtain ⟨u, low⟩ : ∃ u, u = ({ s with pins := { s.pins with pwrlow := true } } : State) := ⟨_, rfl⟩
  have next : exec .pwrlowAsserted s = .next (forPositions allPositions State.checkpoint u) := by
    rw [low]
    exact congrArg Host.Outcome.next (if_neg (by rw [high]; nofun))
  have same : ∀ p, u.ctx p = s.ctx p := fun p => by
    rw [low]
    rfl
  have gives := forPositions_gives checkpoint_gives checkpoint_others nodup_allPositions u (by
    rw [List.flatMap_congr fun p _ => by rw [same p]]
    exact nodup_given directory (fun p => .inl (s.ctx p).given_slots) nodup_allPositions)
  obtain ⟨only, port, queued⟩ := gives
  have slots := flatMap_given_slots u allPositions
  rw [List.flatMap_congr (g := fun p => (s.ctx p).heldSlots) fun p _ => by rw [same p]] at slots
  rw [slots] at only
  have entries := forPositions_same (fun t => t.dir.entries) (fun p t => (checkpoint_rest p t).1) allPositions u
  have lines := forPositions_same State.lines (fun p t => (checkpoint_rest p t).2.1) allPositions u
  have attention := forPositions_same State.attention (fun p t => (checkpoint_rest p t).2.2) allPositions u
  have ctx : ∀ p, (forPositions allPositions State.checkpoint u).ctx p = (s.ctx p).checkpointed := fun p => by
    rw [← same p]
    exact forPositions_ctx (P := fun c d => c.order = c.currentOrder → d = c.checkpointed) checkpoint_ctx checkpoint_others
      nodup_allPositions (mem_allPositions p) u (by rw [same p]; exact orders p)
  generalize forPositions allPositions State.checkpoint u = t at *
  refine ⟨t, next, low ▸ only, ?_, ?_, ?_, ?_, fun p => ⟨fun none => ?_, fun k held => ⟨?_, ?_⟩⟩⟩
  · rw [entries, low]
  · rw [lines, low]
  · rw [attention, low]
  · rw [low] at port
    exact port
  · rw [ctx p, Position.checkpointed, if_neg (by rw [none]; nofun)]
  · rw [ctx p, Position.checkpointed, if_pos (by rw [held]; rfl)]
  · refine (queued (k.slot, k.settlement (s.ctx p).working false) ?_).1
    refine List.mem_flatMap.2 ⟨p, mem_allPositions p, ?_⟩
    rw [same p]
    exact Position.mem_given held

end Sys2Proof.Machine
end

section
/-!
PROOFS. Lines disabled and the drain begun (O15, O54).
-/

namespace Sys2Proof.Machine

/-! ### Agents that act in turn -/

/-- What one agent alone changes, it has changed once when all have acted. -/
theorem fold_once {α β : Type} {f : α → State → State} (g : State → β) (F : β → β) {a : α} (here : ∀ s, g (f a s) = F (g s))
    (others : ∀ b s, b ≠ a → g (f b s) = g s) {as : List α} (apart : as.Nodup) (mem : a ∈ as) (s : State) :
    g (as.foldl (fun t b => f b t) s) = F (g s) := by
  have kept : ∀ (bs : List α) (s : State), a ∉ bs → g (bs.foldl (fun t b => f b t) s) = g s := fun bs => by
    induction bs with
    | nil => exact fun _ _ => rfl
    | cons b bs ih =>
      intro s away
      rw [List.mem_cons, not_or] at away
      exact (ih (f b s) away.2).trans (others b s (Ne.symm away.1))
  induction as generalizing s with
  | nil => nomatch mem
  | cons b bs ih =>
    obtain ⟨away, apart⟩ := List.nodup_cons.1 apart
    obtain rfl | later := List.mem_cons.1 mem
    · exact (kept bs _ away).trans (here s)
    · exact (ih apart later (f b s)).trans (congrArg F (others b s fun e => away (e ▸ later)))

theorem fold_same {α β : Type} {f : α → State → State} (g : State → β) (h : ∀ a s, g (f a s) = g s) (as : List α) (s : State) :
    g (as.foldl (fun t a => f a t) s) = g s := by
  induction as generalizing s with
  | nil => rfl
  | cons a as ih => exact (ih (f a s)).trans (h a s)

/-! ### A line disabled -/

/-- Whether a position goes OFF with its line: a driven line takes all that are not OFF, a FAULTED one those in LOST
(R41). -/
def Position.leaves (c : Position) (l : Line) : Bool :=
  decide (c.state ≠ .off) && (l.driven || decide (l.state = .faulted ∧ c.state = .lost))

/-- A position as its line is disabled. -/
def State.leaveLine (l : Line) (p : Pos) (s : State) : State := if (s.ctx p).leaves l then s.giveUp p .off else s

/-- What a position gives back as its line is disabled. -/
def Position.leaveGiven (l : Line) (c : Position) : List (Slot × Image) := if c.leaves l then c.given else []

theorem Position.leaveGiven_held (c : Position) (l : Line) :
    (c.leaveGiven l).map Prod.fst = c.heldSlots ∨ c.leaveGiven l = [] := by
  unfold Position.leaveGiven
  split
  · exact .inl c.given_slots
  · exact .inr rfl

theorem leaveLine_gives (l : Line) (p : Pos) (s : State) : s.gives true (s.leaveLine l p) ((s.ctx p).leaveGiven l) := by
  unfold State.leaveLine Position.leaveGiven
  split
  · exact giveUp_gives (.inl rfl) s
  · exact .nil true s

theorem leaveLine_ctx (l : Line) (p : Pos) (s : State) :
    (s.leaveLine l p).ctx p = if (s.ctx p).leaves l then (s.ctx p).gone .off else s.ctx p := by
  unfold State.leaveLine
  split
  · exact giveUp_ctx (.inl rfl)
  · rfl

theorem leaveLine_others (l : Line) (p q : Pos) (s : State) (other : p ≠ q) : (s.leaveLine l p).ctx q = s.ctx q := by
  unfold State.leaveLine
  split
  · exact Stands.giveUp_others p _ s q other
  · rfl

theorem leaveLine_rest (l : Line) (p : Pos) (s : State) :
    (s.leaveLine l p).lines = s.lines ∧ (s.leaveLine l p).attention = s.attention := by
  unfold State.leaveLine
  split
  · exact giveUp_rest (.inl rfl)
  · exact ⟨rfl, rfl⟩

theorem Position.leaves_driven {l : Line} (driven : l.driven = true) (c : Position) :
    c.leaves l = decide (c.state ≠ .off) := by
  unfold Position.leaves
  rw [driven, Bool.true_or, Bool.and_true]

theorem Position.leaves_faulted {l : Line} (faulted : l.state = .faulted) (c : Position) :
    c.leaves l = decide (c.state = .lost) := by
  unfold Position.leaves Line.driven
  rw [faulted]
  cases c.state <;> rfl

theorem Position.leaves_off {l : Line} (off : l.state = .off) (c : Position) : c.leaves l = false := by
  unfold Position.leaves Line.driven
  rw [off]
  exact Bool.and_false _

theorem Line.driven_iff (l : Line) : l.driven = true ↔ l.state ≠ .off ∧ l.state ≠ .faulted := by
  unfold Line.driven
  cases l.state <;> decide

/-- DISABLE LINE's effect on a line, by its positions (R41). -/
theorem disableLine_eq {s : State} {l : LineIx} (on : (s.line l).state ≠ .off) : s.disableLine l =
    forPositions (positionsOf l) (State.leaveLine (s.line l)) (s.onLine l (Line.stop .off)) := by
  have enters : (s.line l).driven = true → State.enterOff = State.leaveLine (s.line l) := fun driven => by
    funext p t
    unfold State.enterOff State.leaveLine
    rw [Position.leaves_driven driven]
    by_cases off : (t.ctx p).state = .off
    · rw [if_pos off, if_neg fun leaves => absurd off (of_decide_eq_true leaves)]
    · rw [if_neg off, if_pos (decide_eq_true off)]
  unfold State.disableLine
  split
  · next off => exact absurd off on
  · next faulted =>
    refine congrArg (fun f => forPositions (positionsOf l) f (s.onLine l (Line.stop .off))) ?_
    funext p t
    unfold State.lostToOff State.enterOff State.leaveLine
    rw [Position.leaves_faulted faulted]
    by_cases lost : (t.ctx p).state = .lost
    · rw [if_pos lost, if_neg (by rw [lost]; nofun), if_pos (decide_eq_true lost)]
    · rw [if_neg lost, if_neg fun leaves => lost (of_decide_eq_true leaves)]
  · next driven => rw [enters ((Line.driven_iff _).2 (by rw [driven]; decide))]
  · next driven => rw [enters ((Line.driven_iff _).2 (by rw [driven]; decide))]

/-- What the positions of a line give back as it is disabled. -/
def State.lineGiven (l : LineIx) (s : State) : List (Slot × Image) :=
  (positionsOf l).flatMap fun p => (s.ctx p).leaveGiven (s.line l)

theorem disableLine_gives (l : LineIx) (s : State) (once : ((s.lineGiven l).map Prod.fst).Nodup) :
    s.gives true (s.disableLine l) (s.lineGiven l) := by
  by_cases on : (s.line l).state = .off
  · have none : s.lineGiven l = [] := List.flatMap_eq_nil_iff.2 fun p _ =>
      if_neg (by rw [Position.leaves_off on]; nofun)
    rw [none, State.disableLine, on]
    exact .nil true s
  · rw [disableLine_eq on]
    rw [State.lineGiven, List.map_flatMap] at once
    have gives := forPositions_gives (leaveLine_gives (s.line l)) (leaveLine_others (s.line l)) (nodup_positionsOf l)
      (s.onLine l (Line.stop .off)) once
    exact ⟨((State.onlySettles.refl s _).aside _ _ _).trans gives.only, gives.port, gives.queued⟩

/-- A line, and one of its positions, after DISABLE LINE. -/
theorem disableLine_here (p : Pos) (s : State) :
    ((s.disableLine (lineOf p)).line (lineOf p), (s.disableLine (lineOf p)).ctx p) =
      (if (s.line (lineOf p)).state = .off then s.line (lineOf p) else (s.line (lineOf p)).stop .off,
        if (s.ctx p).leaves (s.line (lineOf p)) then (s.ctx p).gone .off else s.ctx p) := by
  by_cases on : (s.line (lineOf p)).state = .off
  · rw [if_pos on, Position.leaves_off on, if_neg Bool.false_ne_true, State.disableLine, on]
  · have lines := forPositions_same State.lines (fun p t => (leaveLine_rest (s.line (lineOf p)) p t).1)
    have lines := forPositions_same State.lines (fun q t => (leaveLine_rest (s.line (lineOf p)) q t).1)
      (positionsOf (lineOf p)) (s.onLine (lineOf p) (Line.stop .off))
    have ctx := forPositions_ctx (P := fun c d => d = if c.leaves (s.line (lineOf p)) then c.gone .off else c)
      (leaveLine_ctx (s.line (lineOf p))) (leaveLine_others _) (nodup_positionsOf (lineOf p))
      ((Upholds.mem_positionsOf p _).2 rfl) (s.onLine (lineOf p) (Line.stop .off))
    rw [if_neg on, disableLine_eq on, Upholds.line_of_lines lines, State.line_onLine_same, ctx]
    rfl

/-- Another line, and its positions, are left alone. -/
theorem disableLine_others (l : LineIx) (s : State) {p : Pos} (other : lineOf p ≠ l) :
    ((s.disableLine l).line (lineOf p), (s.disableLine l).ctx p) = (s.line (lineOf p), s.ctx p) := by
  by_cases on : (s.line l).state = .off
  · rw [State.disableLine, on]
  · have lines := forPositions_same State.lines (fun q t => (leaveLine_rest (s.line l) q t).1)
      (positionsOf l) (s.onLine l (Line.stop .off))
    have away : p ∉ positionsOf l := fun mem => other ((Upholds.mem_positionsOf p l).1 mem)
    rw [disableLine_eq on, Upholds.line_of_lines lines, State.line_onLine_other other.symm,
      Upholds.forPositions_other (leaveLine_others (s.line l)) away]
    rfl

theorem exists_position (l : LineIx) : ∃ p, lineOf p = l := ⟨posOf l 0, Upholds.lineOf_posOf l 0⟩

theorem disableLine_attention (l : LineIx) (s : State) : (s.disableLine l).attention = s.attention := by
  by_cases on : (s.line l).state = .off
  · rw [State.disableLine, on]
  · rw [disableLine_eq on]
    exact forPositions_same State.attention (fun q t => (leaveLine_rest (s.line l) q t).2) _ _

/-! ### ENABLE LINE and DISABLE LINE (O15) -/

theorem onLineOperand (l : LineIx) (refused : State) (act : LineIx → State) :
    (match lineOperand (BitVec.ofNat 3 l.val) with
      | none => refused
      | some l => act l) = act l := by
  rw [lineOperand_some]

theorem onNoLine {line : BitVec 3} (h : 6 ≤ line.toNat) (refused : State) (act : LineIx → State) :
    (match lineOperand line with
      | none => refused
      | some l => act l) = refused := by
  rw [lineOperand_none h]

theorem lineStates_bits (s : State) (l : LineIx) : s.lineStates.extractLsb' (2 * l.val) 2 = (s.line l).state.code := by
  fin_cases l
  · exact extract_low _ _
  · exact (extract_above (v := 2) _ _ (by decide)).trans (extract_low _ _)
  · exact (extract_above (v := 2) _ _ (by decide)).trans ((extract_above (v := 2) _ _ (by decide)).trans (extract_low _ _))
  · exact (extract_above (v := 2) _ _ (by decide)).trans ((extract_above (v := 2) _ _ (by decide)).trans
      ((extract_above (v := 2) _ _ (by decide)).trans (extract_low _ _)))
  · exact (extract_above (v := 2) _ _ (by decide)).trans ((extract_above (v := 2) _ _ (by decide)).trans
      ((extract_above (v := 2) _ _ (by decide)).trans ((extract_above (v := 2) _ _ (by decide)).trans (extract_low _ _))))
  · exact (extract_above (v := 2) _ _ (by decide)).trans ((extract_above (v := 2) _ _ (by decide)).trans
      ((extract_above (v := 2) _ _ (by decide)).trans ((extract_above (v := 2) _ _ (by decide)).trans
        ((extract_above (v := 2) _ _ (by decide)).trans BitVec.extractLsb'_eq_self))))

/-- The answer of a line action on the port of a frame taken. -/
theorem answerLines_port {s u : State} (same : u.port = s.taken.port) :
    u.answerLines.port = s.port.answered .ok (u.lineStates.setWidth 16) := by
  show ({ u.port with reply := { code := .ok, data := u.lineStates.setWidth 16 } } : Port) = _
  rw [same]
  rfl

/-- The slots that a line's positions give back. -/
theorem lineGiven_slots (s : State) (l : LineIx) : (s.lineGiven l).map Prod.fst =
    (positionsOf l).flatMap fun p => if (s.ctx p).leaves (s.line l) then (s.ctx p).heldSlots else [] := by
  unfold State.lineGiven Position.leaveGiven
  rw [List.map_flatMap]
  refine List.flatMap_congr fun p _ => ?_
  split
  · exact (s.ctx p).given_slots
  · rfl

theorem nodup_lineGiven {s : State} (d : s.directorySound) (l : LineIx) : ((s.lineGiven l).map Prod.fst).Nodup := by
  unfold State.lineGiven
  rw [List.map_flatMap]
  exact nodup_given d (fun p => (s.ctx p).leaveGiven_held (s.line l)) (nodup_positionsOf l)

theorem Position.leaves_iff {l : Line} (on : l.state ≠ .off) (c : Position) :
    c.leaves l = true ↔ c.state ≠ .off ∧ (l.state ≠ .faulted ∨ c.state = .lost) := by
  by_cases faulted : l.state = .faulted
  · rw [Position.leaves_faulted faulted, decide_eq_true_iff]
    exact ⟨fun lost => ⟨by rw [lost]; nofun, .inr lost⟩, fun h => h.2.resolve_left fun n => n faulted⟩
  · rw [Position.leaves_driven ((Line.driven_iff l).2 ⟨on, faulted⟩), decide_eq_true_iff]
    exact ⟨fun away => ⟨away, .inl faulted⟩, And.left⟩

/-- A position that has gone OFF, with what it gave back. -/
theorem gone_fields {released : Bool} {t : State} {c : Position} (target : PosState)
    (queued : ∀ g ∈ c.given, t.queues g.1 g.2 ∧ (released = true → t.free g.1)) :
    (c.gone target).state = target ∧ (c.gone target).claim = none ∧ (c.gone target).call = none ∧
    (c.gone target).candidate = none ∧ (c.gone target).highHalf = none ∧ (c.gone target).refusedSerial = none ∧
    (c.gone target).order = { verdict := .none, warn := false, shown := 0 } ∧ (c.gone target).enabled = c.enabled ∧
    (c.gone target).outstanding = c.outstanding.map (fun o => { o with abandoned := true }) ∧
    ∀ k ∈ c.claim, t.queues k.slot (k.settlement c.working false) ∧ (released = true → t.free k.slot) :=
  ⟨rfl, rfl, rfl, rfl, rfl, rfl, rfl, rfl, rfl, fun _ held => queued _ (Position.mem_given held)⟩

/-- Settles O15. -/
theorem linesAreEnabledAndDisabled : Obligations.LinesAreEnabledAndDisabled := by
  refine ⟨⟨fun s h orders => ⟨fun line high => done_running h (onNoLine high _ _), fun l => ⟨fun driven => ?_, fun stopped => ?_⟩⟩,
    fun s => ⟨lineStates_bits s, rfl, rfl, rfl, rfl⟩⟩,
    fun s h orders directory => ⟨fun line high => done_running h (onNoLine high _ _), fun l => ⟨fun off => ?_, fun on => ?_⟩⟩⟩
  · have left : s.taken.enableLine l = s.taken := if_pos driven
    refine done_running h ((onLineOperand l _ fun l => (s.taken.enableLine l).answerLines).trans ?_)
    rw [left]
    rfl
  · have next : exec (.enableLine (BitVec.ofNat 3 l.val)) s = .next (s.taken.enableLine l).answerLines :=
      done_running h (onLineOperand l _ fun l => (s.taken.enableLine l).answerLines)
    have enables := enableLine_enables (s := s.taken) stopped fun p _ => orders p
    generalize s.taken.enableLine l = u at *
    obtain ⟨rest, line, otherLine, ctx, otherCtx⟩ := enables
    refine ⟨u.answerLines, next, ?_, line l (List.mem_singleton.2 rfl), fun m other => otherLine m fun mem =>
      other (List.mem_singleton.1 mem), fun p other => otherCtx p fun mem => other (List.mem_singleton.1 mem), fun p on =>
        ctx p (List.mem_singleton.2 on)⟩
    rw [rest]
    rfl
  · have left : s.taken.disableLine l = s.taken := by
      rw [State.disableLine, show (s.taken.line l).state = .off from off]
    refine done_running h ((onLineOperand l _ fun l => (s.taken.disableLine l).answerLines).trans ?_)
    rw [left]
    rfl
  · have next : exec (.disableLine (BitVec.ofNat 3 l.val)) s = .next (s.taken.disableLine l).answerLines :=
      done_running h (onLineOperand l _ fun l => (s.taken.disableLine l).answerLines)
    have gives := disableLine_gives l s.taken (nodup_lineGiven directory l)
    have here := fun p (own : lineOf p = l) => own ▸ disableLine_here p s.taken
    have others := fun p (other : lineOf p ≠ l) => disableLine_others l s.taken other
    have attention := disableLine_attention l s.taken
    generalize s.taken.disableLine l = u at *
    obtain ⟨only, port, queued⟩ := gives
    rw [lineGiven_slots] at only
    obtain ⟨p₀, own⟩ := exists_position l
    refine ⟨u.answerLines, next, ?_, attention, answerLines_port (port.of_result_none rfl), ?_, fun m other => ?_,
      fun p other => (Prod.mk.inj (others p other)).2, fun p own => ⟨fun stays => ?_, fun away leaves => ?_⟩⟩
    · refine (((State.onlySettles.refl s _).aside _ _ _).trans only).aside _ _ _ |>.mono fun x mem => ?_
      obtain ⟨p, there, mem⟩ := List.mem_flatMap.1 mem
      refine List.mem_flatMap.2 ⟨p, there, ?_⟩
      have mem : x ∈ if (s.ctx p).leaves (s.line l) then (s.ctx p).heldSlots else [] := mem
      by_cases leaves : (s.ctx p).leaves (s.line l) = true
      · rw [if_pos leaves] at mem
        rw [if_pos ((Position.leaves_iff on _).1 leaves)]
        exact mem
      · rw [if_neg leaves] at mem
        nomatch mem
    · obtain ⟨line, -⟩ := Prod.mk.inj (here p₀ own)
      exact line.trans (if_neg on)
    · obtain ⟨q, rfl⟩ := exists_position m
      exact (Prod.mk.inj (others q other)).1
    · refine (Prod.mk.inj (here p own)).2.trans (if_neg fun leaves => ?_)
      obtain ⟨away, leaves⟩ := (Position.leaves_iff on _).1 leaves
      obtain off | ⟨faulted, kept⟩ := stays
      · exact away off
      · exact leaves.elim (absurd faulted) kept
    · have goes := (Position.leaves_iff on (s.ctx p)).2 ⟨away, leaves⟩
      have gone : u.answerLines.ctx p = (s.ctx p).gone .off := (Prod.mk.inj (here p own)).2.trans (if_pos goes)
      rw [gone]
      have back : ∀ g ∈ (s.ctx p).given, u.queues g.1 g.2 ∧ (true = true → u.free g.1) := fun g mem => by
        refine queued g (List.mem_flatMap.2 ⟨p, (Upholds.mem_positionsOf p l).2 own, ?_⟩)
        rw [Position.leaveGiven]
        exact (if_pos goes).symm ▸ mem
      obtain ⟨state, claim, call, candidate, high, refused, order, enabled, outstanding, cards⟩ := gone_fields .off back
      exact ⟨state, claim, call, candidate, high, refused, order, enabled, outstanding, fun k held =>
        ⟨(cards k held).1, (cards k held).2 rfl⟩⟩

/-! ### The soft reset (O54) -/

theorem lineGiven_others (l m : LineIx) (s : State) (other : l ≠ m) : (s.disableLine l).lineGiven m = s.lineGiven m := by
  unfold State.lineGiven
  refine List.flatMap_congr fun p mem => ?_
  have own := (Upholds.mem_positionsOf p m).1 mem
  obtain ⟨line, ctx⟩ := Prod.mk.inj (disableLine_others l s (p := p) fun e => other (e.symm.trans own))
  rw [← own, line, ctx]

theorem nodup_drain {s : State} (d : s.directorySound) :
    (allLines.flatMap fun l => (s.lineGiven l).map Prod.fst).Nodup := by
  have flat : (allLines.flatMap fun l => (s.lineGiven l).map Prod.fst) =
      allPositions.flatMap fun p => ((s.ctx p).leaveGiven (s.line (lineOf p))).map Prod.fst := by
    rw [allPositions, List.flatMap_assoc]
    refine List.flatMap_congr fun l _ => ?_
    unfold State.lineGiven
    rw [List.map_flatMap]
    exact List.flatMap_congr fun p mem => by rw [(Upholds.mem_positionsOf p l).1 mem]
  rw [flat]
  exact nodup_given d (fun p => (s.ctx p).leaveGiven_held (s.line (lineOf p))) nodup_allPositions

theorem mem_allLines : ∀ l : LineIx, l ∈ allLines := by decide

/-- The drain begins: every line is disabled (R178). -/
theorem beginDrain_spec {s : State} (d : s.directorySound) :
    (s.onPort fun p => { p with mode := .draining }).gives true s.beginDrain (allLines.flatMap fun l => s.lineGiven l) ∧
    s.beginDrain.attention = s.attention ∧
    ∀ p, (s.beginDrain.line (lineOf p), s.beginDrain.ctx p) =
      (if (s.line (lineOf p)).state = .off then s.line (lineOf p) else (s.line (lineOf p)).stop .off,
        if (s.ctx p).leaves (s.line (lineOf p)) then (s.ctx p).gone .off else s.ctx p) := by
  have once : allLines.Nodup := by decide
  refine ⟨fold_gives disableLine_gives (fun l m s => lineGiven_others l m s) once (s.onPort _) (nodup_drain (s := s) d),
    fold_same State.attention disableLine_attention allLines (s.onPort _), fun p => ?_⟩
  exact fold_once (fun t => (t.line (lineOf p), t.ctx p))
    (fun a => (if a.1.state = .off then a.1 else a.1.stop .off, if a.2.leaves a.1 then a.2.gone .off else a.2))
    (disableLine_here p) (fun l s other => disableLine_others l s other.symm) once (mem_allLines _) (s.onPort _)

theorem drained_iff (s : State) : s.drained = true ↔
    s.port.mode = .draining ∧ s.engine.waiting = [] ∧ s.engine.flight = none ∧ s.dir.claims = [] := by
  unfold State.drained
  simp only [Bool.and_eq_true_iff, decide_eq_true_iff, Option.isNone_iff_eq_none, and_assoc]

theorem State.taken_directorySound {s : State} (d : s.directorySound) : s.taken.directorySound := { d with }

/-- Settles O54. -/
theorem theSoftReset : Obligations.TheSoftReset := by
  intro s
  refine ⟨fun h orders directory => ?_, fun released => ⟨fun mode queue flight claims => done_event released ?_,
    fun busy => done_event released (if_neg fun drained => ?_)⟩⟩
  · intro leaves
    have next : exec .resetEnter s = .next (s.taken.beginDrain.answer .ok 0) := done_running h rfl
    obtain ⟨gives, attention, here⟩ := beginDrain_spec (State.taken_directorySound directory)
    generalize s.taken.beginDrain = u at *
    obtain ⟨only, port, queued⟩ := gives
    refine ⟨_, next, ?_, attention, ?_, fun l => ?_, fun served p => ?_, fun p => ⟨fun stays => ?_, fun goes => ?_⟩⟩
    · refine (((State.onlySettles.refl s _).aside _ _ _).trans only).aside _ _ _ |>.mono fun x mem => ?_
      rw [List.map_flatMap] at mem
      obtain ⟨l, -, mem⟩ := List.mem_flatMap.1 mem
      rw [lineGiven_slots] at mem
      obtain ⟨p, own, mem⟩ := List.mem_flatMap.1 mem
      refine List.mem_flatMap.2 ⟨p, mem_allPositions p, ?_⟩
      have same : lineOf p = l := (Upholds.mem_positionsOf p l).1 own
      rw [← same] at mem
      exact mem
    · show ({ u.port with reply := { code := .ok, data := 0 } } : Port) = _
      rw [port.of_result_none rfl]
      rfl
    · obtain ⟨p, rfl⟩ := exists_position l
      exact (Prod.mk.inj (here p)).1
    · have away : leaves p = decide ((s.ctx p).state ≠ .off) := by
        by_cases off : (s.ctx p).state = .off
        · show (decide ((s.ctx p).state ≠ .off) && _) = _
          rw [decide_eq_false (not_not.2 off)]
          rfl
        · show (decide ((s.ctx p).state ≠ .off) && _) = _
          have stands : ((s.line (lineOf p)).driven ||
              decide ((s.line (lineOf p)).state = .faulted ∧ (s.ctx p).state = .lost)) = true := by
            rw [Bool.or_eq_true, decide_eq_true_iff]
            exact served p off
          rw [stands, Bool.and_true]
      refine ⟨away, ?_⟩
      show (u.ctx p).state = _
      rw [(Prod.mk.inj (here p)).2, show (s.taken.ctx p).leaves (s.taken.line (lineOf p)) = decide ((s.ctx p).state ≠ .off) from away]
      by_cases off : (s.ctx p).state = .off
      · rw [if_neg (by rw [decide_eq_false (not_not.2 off)]; nofun)]
        exact off
      · rw [if_pos (decide_eq_true off)]
        rfl
    · exact (Prod.mk.inj (here p)).2.trans (if_neg (by rw [show (s.taken.ctx p).leaves (s.taken.line (lineOf p)) = false from stays]; nofun))
    · have gone : (u.answer .ok 0).ctx p = (s.ctx p).gone .off := (Prod.mk.inj (here p)).2.trans (if_pos goes)
      rw [gone]
      have back : ∀ g ∈ (s.ctx p).given, u.queues g.1 g.2 ∧ (true = true → u.free g.1) := fun g mem => by
        refine queued g (List.mem_flatMap.2 ⟨lineOf p, mem_allLines _, List.mem_flatMap.2
          ⟨p, (Upholds.mem_positionsOf p _).2 rfl, ?_⟩⟩)
        rw [Position.leaveGiven]
        exact (if_pos goes).symm ▸ mem
      obtain ⟨state, claim, call, -, -, -, order, enabled, outstanding, cards⟩ := gone_fields .off back
      exact ⟨state, claim, call, enabled, outstanding, order, fun k held => ⟨(cards k held).1, (cards k held).2 rfl⟩⟩
  · exact if_pos ((drained_iff s).2 ⟨mode, queue, flight, claims⟩)
  · obtain ⟨mode, queue, flight, claims⟩ := (drained_iff s).1 drained
    obtain away | away | away | away := busy
    · exact away mode
    · exact away queue
    · exact away flight
    · exact away claims

end Sys2Proof.Machine
end

section
/-!
PROOFS. A line fault (O16).
-/

namespace Sys2Proof.Machine

/-! ### What an event leaves of the attention unit -/

theorem Attention.afterEvent_rest (f : Flag) (a b : Attention) : a.afterEvent f b =
    { b with pulses := (a.afterEvent f b).pulses, driving := (a.afterEvent f b).driving } := by
  unfold Attention.afterEvent Attention.beginPulse
  split
  · split <;> rfl
  · rfl

/-- POSITION LOST for a position (R75). -/
def Attention.lost (p : Pos) (a : Attention) : Attention :=
  a.afterEvent .positionLost { a with positionLost := some (a.positionLost.getD 0 ||| 1#48 <<< p.val) }

theorem Attention.lost_rest (p : Pos) (a : Attention) : ∃ pulses driving, a.lost p = { a with
    positionLost := some (a.positionLost.getD 0 ||| 1#48 <<< p.val), pulses := pulses, driving := driving } :=
  ⟨_, _, Attention.afterEvent_rest _ _ _⟩

theorem any_getLsbD (set : Option (BitVec 48)) (q : Pos) :
    (set.any fun b => b.getLsbD q.val) = (set.getD 0).getLsbD q.val := by
  cases set with
  | none => exact BitVec.getLsbD_zero.symm
  | some b => rfl

/-- POSITION LOST for several positions in turn. -/
theorem lostAll_spec (ps : List Pos) (a : Attention) : ∃ set pulses driving,
    ps.foldl (fun a p => a.lost p) a = { a with positionLost := set, pulses := pulses, driving := driving } ∧
    ∀ q : Pos, (set.getD 0).getLsbD q.val = ((a.positionLost.getD 0).getLsbD q.val || decide (q ∈ ps)) := by
  induction ps generalizing a with
  | nil => exact ⟨_, _, _, rfl, fun q => (Bool.or_false _).symm⟩
  | cons p ps ih =>
    obtain ⟨n, b, first⟩ := a.lost_rest p
    obtain ⟨set, pulses, driving, rest, bits⟩ := ih (a.lost p)
    rw [first] at bits
    refine ⟨set, pulses, driving, ?_, fun q => (bits q).trans ?_⟩
    · show ps.foldl (fun a p => a.lost p) (a.lost p) = _
      rw [rest, first]
    · show ((a.positionLost.getD 0 ||| 1#48 <<< p.val).getLsbD q.val || _) = _
      rw [getLsbD_joined a.positionLost p q, any_getLsbD, Bool.eq_iff_iff]
      simp only [Bool.or_eq_true, decide_eq_true_iff, List.mem_cons]
      tauto

theorem raiseAll_attention (ps : List Pos) (s : State) :
    (ps.foldl (fun u p => u.raisePositionLost p) s).attention = ps.foldl (fun a p => a.lost p) s.attention := by
  induction ps generalizing s with
  | nil => rfl
  | cons p ps ih => exact ih _

/-! ### A position LOST -/

/-- A position that goes to LOST with its line or for its silence (R75). -/
def Position.loses (c : Position) : Bool := decide (c.state ≠ .off ∧ c.state ≠ .lost)

/-- What a position gives back as it goes to LOST. -/
def Position.lostGiven (c : Position) : List (Slot × Image) := if c.loses then c.given else []

theorem Position.lostGiven_held (c : Position) : c.lostGiven.map Prod.fst = c.heldSlots ∨ c.lostGiven = [] := by
  unfold Position.lostGiven
  split
  · exact .inl c.given_slots
  · exact .inr rfl

theorem enterLost_eq (p : Pos) (s : State) : s.enterLost p =
    if (s.ctx p).loses then
      if (s.ctx p).claim.isSome then (s.giveUp p .lost).raisePositionLost p else s.giveUp p .lost
    else s := by
  unfold State.enterLost Position.loses
  dsimp only
  by_cases stays : (s.ctx p).state = .off ∨ (s.ctx p).state = .lost
  · rw [if_pos stays, if_neg fun loses => ?_]
    obtain ⟨on, found⟩ := of_decide_eq_true loses
    exact stays.elim on found
  · rw [if_neg stays, if_pos (decide_eq_true (not_or.1 stays))]

theorem enterLost_ctx (p : Pos) (s : State) :
    (s.enterLost p).ctx p = if (s.ctx p).loses then (s.ctx p).gone .lost else s.ctx p := by
  rw [enterLost_eq]
  split
  · split <;> exact giveUp_ctx (.inr rfl)
  · rfl

theorem enterLost_lines (p : Pos) (s : State) : (s.enterLost p).lines = s.lines := by
  rw [enterLost_eq]
  split
  · split <;> exact (giveUp_rest (.inr rfl)).1
  · rfl

theorem enterLost_attention (p : Pos) (s : State) : (s.enterLost p).attention =
    if (s.ctx p).claim.isSome && (s.ctx p).loses then s.attention.lost p else s.attention := by
  have same : (s.giveUp p .lost).attention = s.attention := (giveUp_rest (.inr rfl)).2
  rw [enterLost_eq]
  cases (s.ctx p).loses with
  | false =>
    rw [Bool.and_false]
    rfl
  | true =>
    cases (s.ctx p).claim.isSome with
    | false => exact same
    | true =>
      show (s.giveUp p .lost).attention.lost p = _
      rw [same]
      rfl

theorem State.onlySettles.raise {s t : State} {xs : List Slot} (h : s.onlySettles t xs) (f : Flag)
    {update : Attention → Attention} (mask : (update t.attention).mask = t.attention.mask)
    (mode : (update t.attention).mode = t.attention.mode) : s.onlySettles (t.raise f update) xs :=
  { h with
    mask := by
      show (Attention.afterEvent f _ _).mask = _
      rw [Attention.afterEvent_rest]
      exact mask.trans h.mask
    mode := by
      show (Attention.afterEvent f _ _).mode = _
      rw [Attention.afterEvent_rest]
      exact mode.trans h.mode }

theorem enterLost_gives (p : Pos) (s : State) : s.gives true (s.enterLost p) (s.ctx p).lostGiven := by
  rw [enterLost_eq]
  unfold Position.lostGiven
  split
  · obtain ⟨only, port, queued⟩ := giveUp_gives (p := p) (.inr rfl) s
    split
    · exact ⟨only.raise .positionLost rfl rfl, port, queued⟩
    · exact ⟨only, port, queued⟩
  · exact .nil true s

/-! ### The line fault (O16) -/

/-- The positions of a line that POSITION LOST is raised for, in slot order (R42, R75). -/
def State.losing (ps : List Pos) (s : State) : List Pos := ps.filter fun p => (s.ctx p).claim.isSome && (s.ctx p).loses

theorem enterLosts_attention {ps : List Pos} (apart : ps.Nodup) (s : State) :
    (forPositions ps State.enterLost s).attention = (s.losing ps).foldl (fun a p => a.lost p) s.attention := by
  induction ps generalizing s with
  | nil => rfl
  | cons p ps ih =>
    obtain ⟨away, apart⟩ := List.nodup_cons.1 apart
    have same : (s.enterLost p).losing ps = s.losing ps := List.filter_congr fun q mem => by
      rw [Upholds.enterLost_others p q s fun e => away (e ▸ mem)]
    refine (ih apart (s.enterLost p)).trans ?_
    rw [same, enterLost_attention, State.losing, State.losing, List.filter_cons]
    split <;> rfl

theorem raiseLineFault_rest (l : LineIx) (s : State) : ∃ pulses driving, (s.raiseLineFault l).attention = { s.attention with
    lineFault := some (s.attention.lineFault.getD 0 ||| 1#6 <<< l.val), pulses := pulses, driving := driving } :=
  ⟨_, _, Attention.afterEvent_rest _ _ _⟩

theorem mem_losing (s : State) (l : LineIx) (p : Pos) : p ∈ s.losing (positionsOf l) ↔
    lineOf p = l ∧ (s.ctx p).claim.isSome = true ∧ (s.ctx p).loses = true := by
  unfold State.losing
  rw [List.mem_filter, Upholds.mem_positionsOf, Bool.and_eq_true]

theorem flatMap_lostGiven (s : State) (ps : List Pos) : (ps.flatMap fun p => (s.ctx p).lostGiven).map Prod.fst =
    ps.flatMap fun p => if (s.ctx p).state ≠ .off ∧ (s.ctx p).state ≠ .lost then (s.ctx p).heldSlots else [] := by
  rw [List.map_flatMap]
  refine List.flatMap_congr fun p _ => ?_
  unfold Position.lostGiven Position.loses
  by_cases loses : (s.ctx p).state ≠ .off ∧ (s.ctx p).state ≠ .lost
  · rw [if_pos loses, if_pos (decide_eq_true loses)]
    exact (s.ctx p).given_slots
  · rw [if_neg loses, if_neg fun h => loses (of_decide_eq_true h)]
    rfl

/-- Settles O16. -/
theorem lineFaultLosesPositions : Obligations.LineFaultLosesPositions := by
  intro s l released orders directory
  refine ⟨fun stopped => done_event released (if_neg (by rw [stopped]; nofun)), fun driven => ?_⟩
  obtain ⟨u, there⟩ : ∃ u, u = forPositions (positionsOf l) State.enterLost (s.onLine l (Line.stop .faulted)) := ⟨_, rfl⟩
  have next : exec (.lineFaultEvent l) s = .next (u.raiseLineFault l) :=
    done_event released ((if_pos driven).trans (by rw [there]))
  have gives := forPositions_gives enterLost_gives Upholds.enterLost_others (nodup_positionsOf l)
    (s.onLine l (Line.stop .faulted)) (nodup_given directory (fun p => (s.ctx p).lostGiven_held) (nodup_positionsOf l))
  have lines := forPositions_same State.lines enterLost_lines (positionsOf l) (s.onLine l (Line.stop .faulted))
  have attention := enterLosts_attention (nodup_positionsOf l) (s.onLine l (Line.stop .faulted))
  have here := fun p (own : lineOf p = l) => forPositions_ctx
    (P := fun c d => d = if c.loses then c.gone .lost else c) enterLost_ctx Upholds.enterLost_others
    (nodup_positionsOf l) ((Upholds.mem_positionsOf p l).2 own) (s.onLine l (Line.stop .faulted))
  have others := fun p (other : lineOf p ≠ l) => Upholds.forPositions_other Upholds.enterLost_others
    (fun mem => other ((Upholds.mem_positionsOf p l).1 mem)) (s.onLine l (Line.stop .faulted))
  rw [← there] at gives lines attention
  simp only [← there] at here others
  clear there
  obtain ⟨only, port, queued⟩ := gives
  have here : ∀ p, lineOf p = l → u.ctx p = if (s.ctx p).loses then (s.ctx p).gone .lost else s.ctx p := here
  have only := (flatMap_lostGiven s (positionsOf l)) ▸ only
  have attention : u.attention = (s.losing (positionsOf l)).foldl (fun a p => a.lost p) s.attention := attention
  obtain ⟨set, pulses, driving, lost, bits⟩ := lostAll_spec (s.losing (positionsOf l)) s.attention
  obtain ⟨pulses', driving', raised⟩ := raiseLineFault_rest l u
  rw [attention, lost] at raised
  have line : ∀ m, u.line m = (s.onLine l (Line.stop .faulted)).line m := Upholds.line_of_lines lines
  refine ⟨_, next, ?_, port, (line l).trans (State.line_onLine_same _ _ _), fun m other =>
    (line m).trans (State.line_onLine_other (Ne.symm other) _ _), others, ?_, ?_, ?_, fun p => ?_, fun p own =>
    ⟨fun stays => (here p own).trans (if_neg fun loses => ?_), fun away kept => ?_⟩⟩
  · exact (((State.onlySettles.refl s _).aside _ _ _).trans only).raise .lineFault rfl rfl
  · refine congrArg (fun a : Attention => a.afterEvent .lineFault
      { a with lineFault := some (a.lineFault.getD 0 ||| 1#6 <<< l.val) }) (attention.trans ?_)
    exact (raiseAll_attention _ s).symm
  · rw [raised]
  · rw [raised]
  · rw [raised]
    refine (bits p).trans (congrArg _ ?_)
    rw [Bool.eq_iff_iff]
    simp only [decide_eq_true_iff, mem_losing, Position.loses, Bool.and_eq_true]
    tauto
  · obtain ⟨on, found⟩ := of_decide_eq_true loses
    exact stays.elim on found
  · have loses : (s.ctx p).loses = true := decide_eq_true ⟨away, kept⟩
    have gone : (u.raiseLineFault l).ctx p = (s.ctx p).gone .lost := (here p own).trans (if_pos loses)
    rw [gone]
    have back : ∀ g ∈ (s.ctx p).given, u.queues g.1 g.2 ∧ (true = true → u.free g.1) := fun g mem => by
      refine queued g (List.mem_flatMap.2 ⟨p, (Upholds.mem_positionsOf p l).2 own, ?_⟩)
      rw [Position.lostGiven]
      exact (if_pos loses).symm ▸ mem
    obtain ⟨state, claim, call, candidate, -, -, order, -, outstanding, cards⟩ := gone_fields .lost back
    exact ⟨state, claim, call, candidate, order, outstanding, fun k held => ⟨(cards k held).1, (cards k held).2 rfl⟩⟩

end Sys2Proof.Machine
end

section
/-!
PROOFS. The close of a slot window, and a report as its position takes it (O20).
-/

namespace Sys2Proof.Machine

/-! ### The close of a window -/

theorem handOn_lines (p : Pos) (c : ReportClass × Option (BitVec 38)) (s : State) : (s.handOn p c).lines = s.lines := by
  unfold State.handOn
  dsimp only
  split
  · exact (Calls.validReport (P := fun _ => True) trivial _ _).lines
  · exact (Calls.silentCycle (P := fun _ => True) trivial _).lines

theorem windowClose_running {s : State} {l : LineIx} {k : Fin 8} (phase : (s.line l).phase = .window k)
    (running : (s.line l).state = .running) : s.windowClose l =
      (s.handOn (posOf l k) (classify (s.line l).cycle (posOf l k) k (s.line l).record)).withLine l ((s.line l).closed k) := by
  have driven : (s.line l).driven = true := (Line.driven_iff _).2 (by rw [running]; decide)
  have lines := handOn_lines (posOf l k) (classify (s.line l).cycle (posOf l k) k (s.line l).record) s
  unfold State.windowClose
  dsimp only
  rw [phase]
  dsimp only
  rw [if_pos running, if_pos driven, ← Line.afterClose_eq_closed]
  generalize s.handOn (posOf l k) (classify (s.line l).cycle (posOf l k) k (s.line l).record) = u at *
  show u.withLine l (Line.afterClose k (u.line l)) = _
  rw [Upholds.line_of_lines lines]

/-- The close of a window leaves what handing its class on leaves, but for the line. -/
theorem closes_of_handOn {s t : State} {l : LineIx} {k : Fin 8} (released : s.pins.released = true)
    (phase : (s.line l).phase = .window k) (running : (s.line l).state = .running)
    (hands : s.handOn (posOf l k) (classify (s.line l).cycle (posOf l k) k (s.line l).record) = t) : s.closes l k t :=
  done_event released ((windowClose_running phase running).trans (by rw [hands]))

/-- A report handed on with its class leaves the state `t`. -/
theorem State.hears.closes {s t : State} {l : LineIx} {k : Fin 8} {bits : BitVec 38} (h : s.hears l k bits)
    (taken : (s.onCtx (posOf l k) fun x => { x with lastClass := .valid }).validReport (posOf l k) (reportFields bits) = t) :
    s.closes l k t := by
  refine closes_of_handOn h.released h.phase h.state ?_
  rw [h.report]
  exact taken

/-! ### A report before its position's own handling -/

theorem settled_same {c : Position} (order : c.currentOrder = c.order) : c.settled = c :=
  congrArg (fun o => { c with order := o }) order

theorem withCtx_settled {s : State} {p : Pos} {c : Position} (order : c.currentOrder = c.order) :
    s.withCtx p c.settled = s.withCtx p c :=
  congrArg (fun o => s.withCtx p { c with order := o }) order

/-- A position with what a report sets before serial assembly (R51, R53, R55). -/
def Position.met (bits : BitVec 38) (c : Position) : Position :=
  { c with lastClass := .valid, silentCount := 0, lastHook := if bits.getLsbD 31 then .off else .on }

theorem highHalfAfter_report (bits : BitVec 38) : highHalfAfter (reportFields bits) =
    if bits.getLsbD 30 && bits.getLsbD 29 then some (bits.extractLsb' 13 16) else none := by
  show (if bits.getLsbD 30 = true ∧ bits.getLsbD 29 = true then some (bits.extractLsb' 13 16) else none) = _
  simp only [Bool.and_eq_true]

theorem completedSerial_report (c : Position) (bits : BitVec 38) :
    completedSerial c (reportFields bits) = c.completes bits := by
  show (if bits.getLsbD 30 = true ∧ bits.getLsbD 29 = false then
    c.highHalf.map (fun h => h ++ bits.extractLsb' 13 16) else none) = _
  unfold Position.completes
  simp only [Bool.and_eq_true, Bool.not_eq_true']

section
variable {s : State} {p : Pos}

/-- A report taken by a position that is neither OFF nor LOST, down to its pulses. -/
theorem validReport_on (current : (s.ctx p).order = (s.ctx p).currentOrder) (off : (s.ctx p).state ≠ .off)
    (lost : (s.ctx p).state ≠ .lost) (bits : BitVec 38) :
    (s.onCtx p fun x => { x with lastClass := .valid }).validReport p (reportFields bits) =
      let u := (s.withCtx p ((s.ctx p).met bits)).pulses p (bits.extractLsb' 5 4)
      (u.assemble p (reportFields bits)).reportByState p (reportFields bits) ((u.ctx p).completes bits) := by
  have first : s.onCtx p (fun x => { x with lastClass := .valid }) = s.withCtx p { s.ctx p with lastClass := .valid } := by
    rw [State.onCtx_eq]
    exact withCtx_settled current.symm
  rw [first]
  unfold State.validReport
  rw [State.ctx_withCtx_same, if_neg off, State.withCtx_onCtx]
  dsimp only
  rw [if_neg lost, completedSerial_report]
  have settled : Position.settled ((s.ctx p).met bits) = (s.ctx p).met bits := settled_same current.symm
  exact congrArg (fun d =>
    let u := (s.withCtx p d).pulses p (bits.extractLsb' 5 4)
    (u.assemble p (reportFields bits)).reportByState p (reportFields bits) ((u.ctx p).completes bits)) settled

/-- A report that counts no pulses, down to its position's own handling. -/
theorem validReport_byState (current : (s.ctx p).order = (s.ctx p).currentOrder) (off : (s.ctx p).state ≠ .off)
    (lost : (s.ctx p).state ≠ .lost) {bits : BitVec 38}
    (quiet : (s.withCtx p ((s.ctx p).met bits)).pulses p (bits.extractLsb' 5 4) = s.withCtx p ((s.ctx p).met bits)) :
    (s.onCtx p fun x => { x with lastClass := .valid }).validReport p (reportFields bits) =
      (s.withCtx p ((s.ctx p).heard bits)).reportByState p (reportFields bits) ((s.ctx p).completes bits) := by
  rw [validReport_on current off lost, quiet]
  dsimp only
  have assembled : (s.withCtx p ((s.ctx p).met bits)).assemble p (reportFields bits) = s.withCtx p ((s.ctx p).heard bits) := by
    unfold State.assemble
    rw [State.withCtx_onCtx, highHalfAfter_report]
    exact withCtx_settled current.symm
  rw [assembled, State.ctx_withCtx_same]
  rfl

theorem pulses_none {u : State} (metered : (u.ctx p).state ≠ .metered) (grace : (u.ctx p).state ≠ .grace) (pulse : BitVec 4) :
    u.pulses p pulse = u := by
  unfold State.pulses
  split
  · next h => exact absurd h metered
  · next h => exact absurd h grace
  · rfl

/-- A report at a position without a call. -/
theorem validReport_idle (current : (s.ctx p).order = (s.ctx p).currentOrder) (off : (s.ctx p).state ≠ .off)
    (lost : (s.ctx p).state ≠ .lost) (metered : (s.ctx p).state ≠ .metered) (grace : (s.ctx p).state ≠ .grace)
    (bits : BitVec 38) :
    (s.onCtx p fun x => { x with lastClass := .valid }).validReport p (reportFields bits) =
      (s.withCtx p ((s.ctx p).heard bits)).reportByState p (reportFields bits) ((s.ctx p).completes bits) :=
  validReport_byState current off lost (pulses_none (by rw [State.ctx_withCtx_same]; exact metered)
    (by rw [State.ctx_withCtx_same]; exact grace) _)

end

theorem State.hears.idle {s t : State} {l : LineIx} {k : Fin 8} {bits : BitVec 38} (h : s.hears l k bits)
    (off : (s.ctx (posOf l k)).state ≠ .off) (lost : (s.ctx (posOf l k)).state ≠ .lost)
    (metered : (s.ctx (posOf l k)).state ≠ .metered) (grace : (s.ctx (posOf l k)).state ≠ .grace)
    (taken : (s.withCtx (posOf l k) ((s.ctx (posOf l k)).heard bits)).reportByState (posOf l k) (reportFields bits)
      ((s.ctx (posOf l k)).completes bits) = t) : s.closes l k t :=
  h.closes ((validReport_idle (h.orders _) off lost metered grace bits).trans taken)

theorem Position.heard_absent {bits : BitVec 38} (absent : bits.getLsbD 30 = false) (c : Position) :
    c.heard bits = { c.met bits with highHalf := none } := by
  unfold Position.heard
  rw [absent]
  rfl

theorem reportByState_vacant {u : State} {p : Pos} (state : (u.ctx p).state = .vacant) (r : Report) (x : Option Serial) :
    u.reportByState p r x = u.vacantReport p r := by
  unfold State.reportByState
  rw [state]

/-! ### Silent cycles -/

theorem silentCycle_eq {s : State} {p : Pos} {c : Position} (on : c.state ≠ .off) (current : c.order = c.currentOrder) :
    (s.withCtx p c).silentCycle p =
      let d : Position := { c with silentCount := min 15 (c.silentCount + 1) }
      if s.settings.silentLimit ≤ d.silentCount then (s.withCtx p d).enterLost p else s.withCtx p d := by
  have settled : Position.settled { c with silentCount := min 15 (c.silentCount + 1) } =
      { c with silentCount := min 15 (c.silentCount + 1) } := settled_same (c := { c with silentCount := _ }) current.symm
  unfold State.silentCycle
  rw [State.ctx_withCtx_same, if_neg on, State.withCtx_onCtx, settled]
  dsimp only
  rw [State.ctx_withCtx_same]
  rfl

theorem handBack_withCtx (s : State) (p : Pos) (c : Position) (x : Slot) (i : Image) :
    (s.withCtx p c).handBack x i = (s.handBack x i).withCtx p c := by
  unfold State.handBack State.offerSettlement
  by_cases waits : s.hasWaitingValue x = true
  · rw [if_pos waits]
    exact congrArg (State.release x) (if_pos waits)
  · rw [if_neg waits]
    exact congrArg (State.release x) (if_neg waits)

theorem giveUp_withCtx {s : State} {p : Pos} {target : PosState} (away : target = .off ∨ target = .lost) (c : Position) :
    (s.withCtx p c).giveUp p target = (match c.claim with
      | none => s
      | some k => s.handBack k.slot (k.settlement c.working false)).withCtx p (c.gone target) := by
  rw [giveUp_eq away, State.ctx_withCtx_same]
  cases c.claim with
  | none => exact State.withCtx_withCtx _ _ _ _
  | some k =>
    dsimp only
    rw [handBack_withCtx, State.withCtx_withCtx]

theorem Position.gone_none {c : Position} (none : c.claim = .none) (target : PosState) : c.gone target =
    { c.abandoned.unrefused with
      state := target, call := .none, candidate := .none, highHalf := .none, order := .plain .none 0 } := by
  cases c
  cases none
  rfl

theorem Position.gone_held {c : Position} {k : Claim} (held : c.claim = some k) (target : PosState) : c.gone target =
    Position.emptied { c.abandoned.unrefused with
      state := target, call := none, candidate := none, highHalf := none, order := .plain .none 0 } := by
  cases c
  cases held
  rfl

/-- The bits of a window come with VALID only (R50). -/
theorem classify_bits {t : Timing} {p : Pos} {k : Fin 8} {r : WindowRecord} {bits : BitVec 38}
    (h : (classify t p k r).2 = some bits) : classify t p k r = (.valid, some bits) := by
  unfold classify at h ⊢
  split
  · nomatch h
  · nomatch h
  · next f =>
    dsimp only at h
    cases finished : f.finish with
    | none =>
      rw [finished] at h
      nomatch h
    | some e =>
      rw [finished] at h
      dsimp only at h ⊢
      split_ifs at h ⊢
      exact congrArg (Prod.mk _) h

/-! ### The window's end (O20) -/

theorem handOn_silent {s : State} {p : Pos} {w : ReportClass × Option (BitVec 38)} (current : s.ordersCurrent)
    (silent : w.2 = none) : s.handOn p w = (s.withCtx p { s.ctx p with lastClass := w.1 }).silentCycle p := by
  have settled : Position.settled { s.ctx p with lastClass := w.1 } = { s.ctx p with lastClass := w.1 } :=
    settled_same (c := { s.ctx p with lastClass := w.1 }) (current p).symm
  unfold State.handOn
  dsimp only
  rw [silent, State.onCtx_eq, settled]

theorem handOn_off {s : State} {p : Pos} (w : ReportClass × Option (BitVec 38)) (current : s.ordersCurrent)
    (off : (s.ctx p).state = .off) : s.handOn p w = s.withCtx p { s.ctx p with lastClass := w.1 } := by
  have settled : Position.settled { s.ctx p with lastClass := w.1 } = { s.ctx p with lastClass := w.1 } :=
    settled_same (c := { s.ctx p with lastClass := w.1 }) (current p).symm
  unfold State.handOn
  dsimp only
  rw [State.onCtx_eq, settled]
  split
  · unfold State.validReport
    rw [State.ctx_withCtx_same]
    exact if_pos off
  · unfold State.silentCycle
    rw [State.ctx_withCtx_same]
    exact if_pos off

/-- Settles O20. -/
theorem windowsCloseAndHandOn : Obligations.WindowsCloseAndHandOn := by
  intro s l k released orders phase p c w count
  refine ⟨fun f one open' => ?_, fun r receiving next after own => ?_, fun silent => ?_, fun blanking => ?_, fun running =>
    ⟨fun off => ?_, fun on silent few => ?_, fun on found silent many => ?_, fun bits vacant valid absent rests => ?_⟩⟩
  · show classify _ _ _ _ = _
    rw [one]
    unfold classify
    dsimp only
    rw [open']
  · have within : k.val + 1 < 8 := after ▸ next.isLt
    have same : next = ⟨k.val + 1, within⟩ := Fin.ext after
    unfold Line.closed
    rw [dif_pos within, receiving, Option.filter_some, if_pos (decide_eq_true (own.trans (congrArg some same)))]
  · unfold Line.closed
    split
    · rw [silent]
      rfl
    · rfl
  · refine done_event released ?_
    have driven : (s.line l).driven = true := (Line.driven_iff _).2 (by rw [blanking]; decide)
    unfold State.windowClose
    dsimp only
    rw [phase]
    dsimp only
    rw [if_pos driven, if_neg (by rw [blanking]; nofun), ← Line.afterClose_eq_closed]
    rfl
  · exact closes_of_handOn released phase running (handOn_off w orders off)
  · refine closes_of_handOn released phase running (((handOn_silent orders silent).trans
      (silentCycle_eq (c := { s.ctx p with lastClass := w.1 }) on (orders p))).trans ?_)
    obtain below | lost := few
    · exact if_neg (not_le.2 below)
    · dsimp only
      split
      · rw [enterLost_eq, State.ctx_withCtx_same]
        exact if_neg fun loses => (of_decide_eq_true loses).2 lost
      · rfl
  · intro lost
    obtain ⟨d, there⟩ : ∃ d : Position, d = { c with lastClass := w.1, silentCount := count } := ⟨_, rfl⟩
    have same : d.claim = c.claim ∧ d.state = c.state ∧ d.working = c.working := by
      rw [there]
      exact ⟨rfl, rfl, rfl⟩
    obtain ⟨claim, state, working⟩ := same
    have enters : s.handOn p w = (s.withCtx p d).enterLost p := by
      rw [there]
      exact ((handOn_silent orders silent).trans
        (silentCycle_eq (c := { s.ctx p with lastClass := w.1 }) on (orders p))).trans (if_pos many)
    have loses : d.loses = true := decide_eq_true ⟨state ▸ on, state ▸ found⟩
    rw [enterLost_eq, State.ctx_withCtx_same, if_pos loses, giveUp_withCtx (.inr rfl), claim] at enters
    refine ⟨fun none => closes_of_handOn released phase running ?_, fun held holds =>
      ⟨(s.handBack held.slot (held.settlement c.working false)).withCtx p lost.emptied, handBack_settles held _,
        closes_of_handOn released phase running ?_⟩⟩
    · rw [none, if_neg (by nofun), Position.gone_none (claim.trans none), there] at enters
      exact enters
    · rw [holds, if_pos Option.isSome_some, Position.gone_held (claim.trans holds), working, there] at enters
      have attention := (handBack_rest held.slot (held.settlement c.working false) s).2.2
      refine enters.trans ?_
      show ({ (s.handBack held.slot (held.settlement c.working false)).withCtx p lost.emptied with
        attention := (s.handBack held.slot (held.settlement c.working false)).attention.lost p } : State) = _
      rw [attention]
      rfl
  · have report := classify_bits valid
    have hears : s.hears l k bits := ⟨released, running, phase, report, orders⟩
    have state := fun st (other : PosState.vacant ≠ st) => (fun e => other (vacant.symm.trans e) : (s.ctx p).state ≠ st)
    refine hears.idle (state _ nofun) (state _ nofun) (state _ nofun) (state _ nofun) ?_
    rw [reportByState_vacant (by rw [State.ctx_withCtx_same]; exact vacant), Position.heard_absent absent]
    exact (if_neg (by rw [show (reportFields bits).present = false from absent]; nofun)).trans (if_pos rests)

end Sys2Proof.Machine
end

section
/-!
PROOFS. Reports at positions without a call (O21).
-/

namespace Sys2Proof.Machine

/-! ### A call answered without a card that can pay (R73) -/

theorem afterTariffRead_eq (zone : BitVec 4) (s : State) :
    s.afterTariffRead zone = { s with attention := s.attentionAfterRead zone } := by
  unfold State.afterTariffRead State.attentionAfterRead
  split <;> rfl

theorem entryInForce_some {s : State} {zone : BitVec 4} {e : TariffEntry} (h : s.entryInForce zone = some e) :
    s.tariff.entry zone s.tariff.band = e ∧ e.verifies = true := by
  unfold State.entryInForce at h
  dsimp only at h
  split at h
  · next usable =>
    cases h
    exact ⟨rfl, (Bool.and_eq_true_iff.1 usable).2⟩
  · nomatch h

/-- An entry in force that is usable verifies: no TARIFF FAULT. -/
theorem attentionAfterRead_usable {s : State} {zone : BitVec 4} {e : TariffEntry} (h : s.entryInForce zone = some e) :
    s.attentionAfterRead zone = s.attention := by
  obtain ⟨entry, verifies⟩ := entryInForce_some h
  unfold State.attentionAfterRead
  exact if_pos (entry ▸ verifies)

theorem afterTariffRead_usable {s : State} {zone : BitVec 4} {e : TariffEntry} (h : s.entryInForce zone = some e) :
    s.afterTariffRead zone = s := by
  rw [afterTariffRead_eq, attentionAfterRead_usable h]

theorem attentionAfterRead_congr {s u : State} (tariff : u.tariff = s.tariff) (attention : u.attention = s.attention)
    (zone : BitVec 4) : u.attentionAfterRead zone = s.attentionAfterRead zone := by
  unfold State.attentionAfterRead State.raiseTariffFault State.raise State.onAttention
  rw [tariff, attention]

theorem entryInForce_congr {s u : State} (tariff : u.tariff = s.tariff) (zone : BitVec 4) :
    u.entryInForce zone = s.entryInForce zone := by
  unfold State.entryInForce
  rw [tariff]

/-- A position cut from another state than GRACE. -/
theorem enterCut_settled {c : Position} (grace : c.state ≠ .grace) (v : Verdict) :
    (c.enterCut v).settled = { c with state := .cut, call := none, order := .plain v 0 } := by
  have kept : (c.enterCut v).candidate = c.candidate := by
    unfold Position.enterCut
    dsimp only
    split
    · next h _ => exact absurd h grace
    · rfl
  exact congrArg (fun x => ({ c with state := .cut, call := none, order := .plain v 0, candidate := x } : Position)) kept

section
variable {s : State} {p : Pos} {d : Position} {zone : BitVec 4}

theorem unpaidTest_free {e : TariffEntry} (entry : s.entryInForce zone = some e)
    (free : e.initialCharge = 0 ∧ e.standardRate = 0) : s.unpaidTest p zone = s := by
  unfold State.unpaidTest
  rw [entry, afterTariffRead_usable entry]
  exact if_pos free

theorem unpaidTest_due (due : ∀ e, s.entryInForce zone = some e → e.initialCharge ≠ 0 ∨ e.standardRate ≠ 0) :
    s.unpaidTest p zone = (s.afterTariffRead zone).onCtx p (Position.enterCut .cutUnpaid) := by
  unfold State.unpaidTest
  dsimp only
  split
  · next e entry =>
    refine if_neg fun free => ?_
    exact (due e entry).elim (fun n => n free.1) fun n => n free.2
  · rfl

/-- What a report leaves that finds a call answered on no card or a refused one. -/
theorem closes_unpaid {l : LineIx} {k : Fin 8} {u : State}
    (tariff : u.tariff = s.tariff) (attention : u.attention = s.attention) (grace : d.state ≠ .grace)
    (taken : ∀ t, (u.withCtx (posOf l k) d).unpaidTest (posOf l k) zone = t → s.closes l k t) :
    (∀ e, s.entryInForce zone = some e → e.initialCharge = 0 ∧ e.standardRate = 0 → s.closes l k (u.withCtx (posOf l k) d)) ∧
    ((∀ e, s.entryInForce zone = some e → e.initialCharge ≠ 0 ∨ e.standardRate ≠ 0) → s.closes l k {
      u.withCtx (posOf l k) { d with state := .cut, call := none, order := .plain .cutUnpaid 0 } with
        attention := s.attentionAfterRead zone }) := by
  have same : (u.withCtx (posOf l k) d).entryInForce zone = s.entryInForce zone := entryInForce_congr tariff zone
  refine ⟨fun e entry free => taken _ (unpaidTest_free (same.trans entry) free), fun due => taken _ ?_⟩
  rw [unpaidTest_due fun e entry => due e (same.symm.trans entry), afterTariffRead_eq,
    attentionAfterRead_congr (u := u.withCtx (posOf l k) d) tariff attention zone, ← enterCut_settled grace]
  show State.onCtx _ _ { u.withCtx (posOf l k) d with attention := _ } = _
  rw [State.onCtx_eq]
  show State.withCtx _ (Position.settled (Position.enterCut _ ((u.withCtx (posOf l k) d).ctx (posOf l k)))) _ = _
  rw [State.ctx_withCtx_same]
  exact congrArg (fun v : State => { v with attention := s.attentionAfterRead zone }) (State.withCtx_withCtx u _ d _)

end

/-! ### Reports, position by position -/

/-- A position whose card has left (R60). -/
def Position.vacated (c : Position) : Position :=
  { c with state := .vacant, candidate := none, order := .plain .none 0 }

section
variable {s : State} {p : Pos} {d : Position} {r : Report}

theorem vacantReport_present (present : r.present = true) :
    (s.withCtx p d).vacantReport p r = s.withCtx p { d with state := .reading, order := .plain .none 0 } :=
  (if_pos present).trans (State.withCtx_onCtx s p d _)

theorem vacantReport_rests (absent : r.present = false) (rests : r.zone = 0) : s.vacantReport p r = s :=
  (if_neg (by rw [absent]; nofun)).trans (if_pos rests)

theorem vacantReport_call (absent : r.present = false) (call : r.zone ≠ 0) : s.vacantReport p r = s.unpaidTest p r.zone :=
  (if_neg (by rw [absent]; nofun)).trans (if_neg call)

theorem cardLeft_eq : (s.withCtx p d).cardLeft p r = (s.withCtx p d.vacated).vacantReport p r := by
  unfold State.cardLeft
  rw [State.withCtx_onCtx]
  rfl

theorem endClaim_withCtx {k : Claim} (held : d.claim = some k) : (s.withCtx p d).endClaim p false =
    (s.handBack k.slot (k.settlement d.working false)).withCtx p d.dropClaim.settled := by
  rw [endClaim_eq (by rw [State.ctx_withCtx_same]; exact held), State.ctx_withCtx_same, handBack_withCtx, State.withCtx_withCtx]

end

theorem Position.completes_present {c : Position} {bits : BitVec 38} {x : Serial} (h : c.completes bits = some x) :
    bits.getLsbD 30 = true := by
  unfold Position.completes at h
  split at h
  · next both => exact (Bool.and_eq_true_iff.1 both).1
  · nomatch h

section
variable {s : State} {l : LineIx} {k : Fin 8} {bits : BitVec 38}

/-- The card has left, and the same report is taken from VACANT. -/
theorem closes_left {u : State} {d : Position} (tariff : u.tariff = s.tariff)
    (attention : u.attention = s.attention) (absent : bits.getLsbD 30 = false)
    (taken : ∀ t, (u.withCtx (posOf l k) d).cardLeft (posOf l k) (reportFields bits) = t → s.closes l k t) :
    (bits.extractLsb' 9 4 = 0 → s.closes l k (u.withCtx (posOf l k) d.vacated)) ∧
    (bits.extractLsb' 9 4 ≠ 0 →
      (∀ e, s.entryInForce (bits.extractLsb' 9 4) = some e → e.initialCharge = 0 ∧ e.standardRate = 0 →
        s.closes l k (u.withCtx (posOf l k) d.vacated)) ∧
      ((∀ e, s.entryInForce (bits.extractLsb' 9 4) = some e → e.initialCharge ≠ 0 ∨ e.standardRate ≠ 0) → s.closes l k {
        u.withCtx (posOf l k) { d.vacated with state := .cut, call := none, order := .plain .cutUnpaid 0 } with
          attention := s.attentionAfterRead (bits.extractLsb' 9 4) })) := by
  refine ⟨fun rests => taken _ (cardLeft_eq.trans (vacantReport_rests absent rests)), fun call =>
    closes_unpaid tariff attention nofun fun t ends => taken t ?_⟩
  rw [cardLeft_eq, vacantReport_call absent call]
  exact ends

/-- How a report of a position without a call is taken. -/
theorem State.hears.byState (h : s.hears l k bits) {st : PosState} (state : (s.ctx (posOf l k)).state = st)
    (idle : st ≠ .off ∧ st ≠ .lost ∧ st ≠ .metered ∧ st ≠ .grace) :
    ∀ t, (s.withCtx (posOf l k) ((s.ctx (posOf l k)).heard bits)).reportByState (posOf l k) (reportFields bits)
      ((s.ctx (posOf l k)).completes bits) = t → s.closes l k t := by
  obtain ⟨off, lost, metered, grace⟩ := idle
  intro t
  exact h.idle (state ▸ off) (state ▸ lost) (state ▸ metered) (state ▸ grace)

/-- A LOST position takes its report from VACANT (R76). -/
theorem State.hears.lost (h : s.hears l k bits) (lost : (s.ctx (posOf l k)).state = .lost) {t : State}
    (taken : (s.withCtx (posOf l k) { (s.ctx (posOf l k)).heard bits with
      state := .vacant, order := .plain .none 0 }).vacantReport (posOf l k) (reportFields bits) = t) : s.closes l k t := by
  refine h.closes ?_
  rw [← taken]
  have first : (s.onCtx (posOf l k) fun x => { x with lastClass := .valid }) =
      s.withCtx (posOf l k) { s.ctx (posOf l k) with lastClass := .valid } := by
    rw [State.onCtx_eq]
    exact withCtx_settled (h.orders _).symm
  rw [first]
  unfold State.validReport
  rw [State.ctx_withCtx_same, if_neg (by rw [lost]; nofun), State.withCtx_onCtx]
  dsimp only
  rw [if_pos lost, pulses_none (by rw [State.ctx_withCtx_same]; nofun) (by rw [State.ctx_withCtx_same]; nofun),
    reportByState_vacant (by rw [State.assemble, State.ctx_onCtx_same, State.ctx_withCtx_same]; rfl), State.assemble,
    State.withCtx_onCtx, highHalfAfter_report]
  rfl

theorem plain_of_current {c : Position} (current : c.order = c.currentOrder)
    (empty : c.state = .vacant ∨ c.state = .reading) : c.order = .plain .none 0 := by
  rw [current, Position.currentOrder]
  obtain e | e := empty <;> rw [e] <;> rfl

end

theorem differs_some {x : Serial} {known : Option Serial} (other : known ≠ some x) : differs (some x) known = true := by
  unfold differs
  rw [Option.isSome_some, Bool.true_and, bne_iff_ne]
  exact other.symm

theorem differs_same {met known : Option Serial} (same : met = none ∨ met = known) : differs met known = false := by
  unfold differs
  obtain rfl | rfl := same
  · rfl
  · rw [bne_self_eq_false, Bool.and_false]

theorem handBack_tariff (x : Slot) (i : Image) (s : State) : (s.handBack x i).tariff = s.tariff := by
  have rest := (State.offers.offerSettlement (x := x) (List.mem_singleton.2 rfl) i s).rest
  show (s.offerSettlement x i).tariff = _
  rw [rest]

/-- A position in HELD whose card has been released shows a balance of 0. -/
theorem emptied_held {c : Position} (held : c.state = .held) :
    c.dropClaim.settled = { c.emptied with order := .plain .accepted 0 } := by
  have order : c.dropClaim.currentOrder = .plain .accepted 0 := by
    rw [Position.currentOrder, show c.dropClaim.state = .held from held]
    rfl
  exact congrArg (fun o => { c.emptied with order := o }) order

/-- A position in REFUSED that has forgotten its card shows nothing. -/
theorem unrefused_refused {c : Position} (refused : c.state = .refused) :
    c.clearRefused.settled = { c.unrefused with order := .plain .none 0 } := by
  have order : c.clearRefused.currentOrder = .plain .none 0 := by
    rw [Position.currentOrder, show c.clearRefused.state = .refused from refused]
    rfl
  exact congrArg (fun o => { c.unrefused with order := o }) order

/-- Settles O21. -/
theorem reportsWithoutACall : Obligations.ReportsWithoutACall := by
  intro s l k bits hears p c present zone h vacant leaves sends unpaidFrom unpaid
  refine ⟨fun state => ?_, fun state => ?_, fun state => ?_, fun state => ?_, fun state _ held claim => ?_, fun state => ?_⟩
  · intro d
    have takes : ∀ t, (s.withCtx p d).vacantReport p (reportFields bits) = t → s.closes l k t := by
      obtain vacant | lost := state
      · have same : d = h := by
          show ({ h with state := .vacant, order := .plain .none 0 } : Position) = h
          rw [← show c.order = .plain .none 0 from plain_of_current (hears.orders p) (.inl vacant),
            ← show c.state = .vacant from vacant]
          rfl
        intro t taken
        refine hears.byState vacant (by decide) t ?_
        rw [reportByState_vacant (by rw [State.ctx_withCtx_same]; exact vacant), ← taken, same]
      · exact fun t => hears.lost lost
    refine ⟨fun shown => takes _ (vacantReport_present shown), fun absent rests => takes _ (vacantReport_rests absent rests),
      fun absent call => closes_unpaid rfl rfl nofun fun t ends => takes t ?_⟩
    exact (vacantReport_call absent call).trans ends
  · have takes := hears.byState state (by decide)
    have reads : (s.withCtx p h).reportByState p (reportFields bits) (c.completes bits) =
        (s.withCtx p h).readingReport p (reportFields bits) (c.completes bits) := by
      unfold State.reportByState
      rw [State.ctx_withCtx_same, show h.state = .reading from state]
    have left := fun (absent : present = false) => closes_left (d := h) rfl rfl absent fun t ends =>
      takes t (reads.trans ((if_pos absent).trans ends))
    refine ⟨fun absent => (left absent).1, fun absent => (left absent).2, fun shown none => takes _ (reads.trans ?_),
      fun x met => takes _ (reads.trans ?_)⟩
    · rw [none]
      exact if_neg (by rw [show (reportFields bits).present = true from shown]; nofun)
    · rw [met]
      exact if_neg (by rw [show (reportFields bits).present = true from Position.completes_present met]; nofun)
  · have takes := hears.byState state (by decide)
    have reads : (s.withCtx p h).reportByState p (reportFields bits) (c.completes bits) =
        (s.withCtx p h).checkingReport p (reportFields bits) (c.completes bits) := by
      unfold State.reportByState
      rw [State.ctx_withCtx_same, show h.state = .checking from state]
    have left := fun (absent : present = false) => closes_left (d := h.abandon.settled) rfl rfl absent fun t ends =>
      takes t (reads.trans ((if_pos absent).trans ((congrArg (State.cardLeft p (reportFields bits))
        (State.withCtx_onCtx s p h Position.abandon)).trans ends)))
    refine ⟨fun absent => (left absent).1, fun absent => (left absent).2, fun x met other => takes _ (reads.trans ?_),
      fun shown same => takes _ (reads.trans ?_)⟩
    · unfold State.checkingReport
      rw [if_neg (by rw [show (reportFields bits).present = true from Position.completes_present met]; nofun),
        State.ctx_withCtx_same, met,
        if_pos (show differs (some x) h.candidate = true from differs_some other), State.withCtx_onCtx]
      rfl
    · unfold State.checkingReport
      rw [if_neg (by rw [show (reportFields bits).present = true from shown]; nofun), State.ctx_withCtx_same,
        show differs (c.completes bits) h.candidate = false from differs_same same]
      rfl
  · have takes := hears.byState state (by decide)
    have reads : (s.withCtx p h).reportByState p (reportFields bits) (c.completes bits) =
        (s.withCtx p h).waitingReport p (reportFields bits) (c.completes bits) := by
      unfold State.reportByState
      rw [State.ctx_withCtx_same, show h.state = .waiting from state]
    have left := fun (absent : present = false) => closes_left (d := h) rfl rfl absent fun t ends =>
      takes t (reads.trans ((if_pos absent).trans ends))
    refine ⟨fun absent => (left absent).1, fun absent => (left absent).2, fun x met => takes _ (reads.trans ?_),
      fun x shown none candidate => takes _ (reads.trans ?_)⟩
    · unfold State.waitingReport
      rw [if_neg (by rw [show (reportFields bits).present = true from Position.completes_present met]; nofun), met]
    · unfold State.waitingReport
      rw [if_neg (by rw [show (reportFields bits).present = true from shown]; nofun), State.ctx_withCtx_same, none,
        show h.candidate = some x from candidate]
  · have takes := hears.byState state (by decide)
    have reads : (s.withCtx p h).reportByState p (reportFields bits) (c.completes bits) =
        (s.withCtx p h).heldReport p (reportFields bits) (c.completes bits) := by
      unfold State.reportByState
      rw [State.ctx_withCtx_same, show h.state = .held from state]
    have ends := endClaim_withCtx (s := s) (p := p) (d := h) claim
    have left := fun (absent : present = false) => closes_left (u := s.handBack held.slot (held.settlement c.working false))
      (d := h.dropClaim.settled) (handBack_tariff _ _ s) (handBack_rest _ _ s).2.2 absent fun t leaves =>
        takes t (reads.trans ((if_pos absent).trans ((congrArg (State.cardLeft p (reportFields bits)) ends).trans leaves)))
    refine ⟨fun absent rests => ⟨_, handBack_settles held _, (left absent).1 rests⟩, fun absent call =>
      ⟨_, handBack_settles held (vacant h.emptied), fun e entry free => ?_, fun due => ?_⟩, fun x met other =>
      ⟨_, handBack_settles held _, takes _ (reads.trans ?_)⟩, fun shown rests same => takes _ (reads.trans ?_)⟩
    · rw [State.withCtx_withCtx]
      exact ((left absent).2 call).1 e entry free
    · rw [State.withCtx_withCtx]
      exact ((left absent).2 call).2 due
    · unfold State.heldReport
      rw [if_neg (by rw [show (reportFields bits).present = true from Position.completes_present met]; nofun), met]
      dsimp only
      rw [State.ctx_withCtx_same, show h.claim = some held from claim, if_pos
          (show some x ≠ (some held).map Claim.serial from fun e => other (Option.some_injective _ e)),
        ends, emptied_held (show h.state = .held from state)]
      rfl
    · unfold State.heldReport
      rw [if_neg (by rw [show (reportFields bits).present = true from shown]; nofun)]
      obtain none | known := same
      · rw [none]
        exact if_pos rests
      · rw [known]
        dsimp only
        rw [State.ctx_withCtx_same, show h.claim = some held from claim]
        exact (if_neg (fun differs => differs rfl)).trans (if_pos rests)
  · have takes := hears.byState state (by decide)
    have reads : (s.withCtx p h).reportByState p (reportFields bits) (c.completes bits) =
        (s.withCtx p h).refusedReport p (reportFields bits) (c.completes bits) := by
      unfold State.reportByState
      rw [State.ctx_withCtx_same, show h.state = .refused from state]
    have left := fun (absent : present = false) => closes_left (d := h.clearRefused.settled) rfl rfl absent fun t ends =>
      takes t (reads.trans ((if_pos absent).trans ((congrArg (State.cardLeft p (reportFields bits))
        (State.withCtx_onCtx s p h Position.clearRefused)).trans ends)))
    refine ⟨fun absent => (left absent).1, fun absent => (left absent).2, fun x met other => takes _ (reads.trans ?_),
      fun x met same => takes _ (reads.trans ?_), fun shown none rests => takes _ (reads.trans ?_), fun shown none call =>
      closes_unpaid rfl rfl (by rw [show h.state = .refused from state]; nofun) fun t ends => takes t (reads.trans ?_)⟩
    · unfold State.refusedReport
      rw [if_neg (by rw [show (reportFields bits).present = true from Position.completes_present met]; nofun), met]
      dsimp only
      rw [State.ctx_withCtx_same, if_neg fun e => other e.symm, State.withCtx_onCtx,
        unrefused_refused (show h.state = .refused from state)]
    · unfold State.refusedReport
      rw [if_neg (by rw [show (reportFields bits).present = true from Position.completes_present met]; nofun), met]
      dsimp only
      rw [State.ctx_withCtx_same]
      exact if_pos same.symm
    · unfold State.refusedReport
      rw [if_neg (by rw [show (reportFields bits).present = true from shown]; nofun), none]
      exact if_pos rests
    · unfold State.refusedReport
      rw [if_neg (by rw [show (reportFields bits).present = true from shown]; nofun), none]
      exact (if_neg call).trans ends

end Sys2Proof.Machine
end

section
/-!
PROOFS. Payments, and the expiry of a call's timers (O25, O26).
-/

namespace Sys2Proof.Machine

/-! ### The takings -/

/-- The attention unit once TAKINGS FULL has been raised (R126). -/
def Attention.takingsRaised (a : Attention) : Attention := a.afterEvent .takingsFull { a with takingsFull := true }

theorem raiseTakingsFull_attention (s : State) : s.raiseTakingsFull.attention = s.attention.takingsRaised := rfl

theorem Attention.takingsRaised_eq (a : Attention) : a.takingsRaised =
    { a with takingsFull := true, pulses := a.takingsRaised.pulses, driving := a.takingsRaised.driving } :=
  Attention.afterEvent_rest _ _ _

/-- TAKINGS FULL raised again changes nothing. -/
theorem Attention.takingsRaised_twice (a : Attention) : a.takingsRaised.takingsRaised = a.takingsRaised := by
  have set : a.takingsRaised.takingsFull = true := by rw [a.takingsRaised_eq]
  generalize a.takingsRaised = b at set ⊢
  refine (if_neg fun h => ?_ : b.takingsRaised = _).trans ?_
  · rw [show b.isSet .takingsFull = b.takingsFull from rfl, set] at h
    nomatch h.2.1
  · rw [← set]

/-- What the units of a debit add to the takings leaves all else as it was but the attention unit. -/
theorem addTakings_rest (cls : CardClass) (zone : BitVec 4) (units : Nat) (s : State) :
    s.addTakings cls zone units = { s with
      tariff := { s.tariff with takings := (s.addTakings cls zone units).tariff.takings }
      attention := (s.addTakings cls zone units).attention } := by
  unfold State.addTakings
  dsimp only
  split
  · rfl
  · split <;> rfl

theorem addTakings_takings (cls : CardClass) (zone : BitVec 4) (units : Nat) {s : State}
    (most : s.tariff.takings[counterIndex cls zone] ≤ 4294967295) (i : Fin 16) :
    (s.addTakings cls zone units).tariff.takings[i] =
      if i = counterIndex cls zone then min 4294967295 (s.tariff.takings[i] + units) else s.tariff.takings[i] := by
  have counted : (s.tariff.takings.set (counterIndex cls zone).val
      (min Config.maxTakings (s.tariff.takings[counterIndex cls zone] + units)) (counterIndex cls zone).isLt)[i] =
      if i = counterIndex cls zone then min 4294967295 (s.tariff.takings[i] + units) else s.tariff.takings[i] := by
    by_cases mine : i = counterIndex cls zone
    · rw [if_pos mine, mine]
      exact Vector.getElem_set_self _
    · rw [if_neg mine]
      exact Vector.getElem_set_ne _ _ fun e => mine (Fin.ext e.symm)
  unfold State.addTakings
  dsimp only
  split
  · next none =>
    subst none
    split
    · next mine => rw [mine, Nat.add_zero, Nat.min_eq_right most]
    · rfl
  · split <;> exact counted

theorem addTakings_attention (cls : CardClass) (zone : BitVec 4) (units : Nat) (s : State) :
    (s.addTakings cls zone units).attention =
      if 0 < units ∧ 4294967295 ≤ s.tariff.takings[counterIndex cls zone] + units then s.attention.takingsRaised
      else s.attention := by
  unfold State.addTakings
  dsimp only
  split
  · next none => exact (if_neg fun h => absurd (none ▸ h.1) (Nat.lt_irrefl 0)).symm
  · next some =>
    by_cases full : 4294967295 ≤ s.tariff.takings[counterIndex cls zone] + units
    · rw [if_pos (Nat.min_eq_left full), if_pos ⟨Nat.pos_of_ne_zero some, full⟩]
      rfl
    · rw [if_neg fun h => full (min_eq_left_iff.1 h), if_neg fun h => full h.2]
      rfl

/-! ### One debit (R86, R87) -/

/-- The state after a debit from a card, its position aside, where the card's account was `a` (R86, R87). -/
def State.charged (held : Claim) (zone : BitVec 4) (a : Account) (units : Nat) (s : State) : State :=
  let t := s.addTakings held.cls zone units
  let b := a.debit (decide (held.cls = .service)) s.stepInForce units
  if 0 < units ∧ s.stepInForce ≤ a.debited + units then t.offerSettlement held.slot (held.settlement b.working false) else t

theorem State.pays.nil {s : State} {p : Pos} {held : Claim} {zone : BitVec 4} {working debited : Nat}
    (most : s.tariff.takings[counterIndex held.cls zone] ≤ 4294967295) :
    s.pays s p held zone [] (s.account held.cls [] working debited) (s.ctx p) where
  only := .refl s _
  lines := rfl
  positions := by rw [State.withCtx_same]
  entries := rfl
  port := .refl _
  takings i := by
    split
    · next mine => rw [mine]; exact (Nat.min_eq_right most).symm
    · rfl
  attention := (if_neg fun h => absurd h.1 (Nat.lt_irrefl 0)).symm
  settled := nofun
  unsettled _ := ⟨rfl, rfl, rfl⟩

theorem addTakings_onlyQueues (cls : CardClass) (zone : BitVec 4) (units : Nat) (s : State) (xs : List Slot) :
    s.onlyQueues (s.addTakings cls zone units) xs := by
  have kept : ∀ a, a = s.attention ∨ a = s.attention.takingsRaised → a.mask = s.attention.mask ∧ a.mode = s.attention.mode := by
    rintro a (rfl | rfl)
    · exact ⟨rfl, rfl⟩
    · rw [Attention.takingsRaised_eq]
      exact ⟨rfl, rfl⟩
  obtain ⟨mask, mode⟩ := kept (s.addTakings cls zone units).attention (by
    rw [addTakings_attention]
    split
    · exact .inr rfl
    · exact .inl rfl)
  rw [addTakings_rest]
  exact { (State.onlyQueues.refl s xs) with tariff := rfl, mask := mask, mode := mode }

section
variable {s t : State} {p : Pos} {held : Claim} {zone : BitVec 4} {xs : List Nat} {a : Account} {c : Position}

theorem State.onlyQueues.stepInForce {xs : List Slot} (h : s.onlyQueues t xs) : t.stepInForce = s.stepInForce := by
  unfold State.stepInForce
  rw [h.pins, h.settings]

theorem charged_offers (units : Nat) :
    (t.addTakings held.cls zone units).offers (t.charged held zone a units) [held.slot] := by
  unfold State.charged
  dsimp only
  split
  · exact .offerSettlement (List.mem_singleton.2 rfl) _ _
  · exact .refl _ _

/-- A debit that makes no checkpoint settlement. -/
theorem charged_unsettled {units : Nat} (unsettled : ¬(0 < units ∧ t.stepInForce ≤ a.debited + units)) :
    t.charged held zone a units = t.addTakings held.cls zone units :=
  if_neg unsettled

theorem charged_settled {units : Nat} (settled : 0 < units ∧ t.stepInForce ≤ a.debited + units) :
    t.charged held zone a units = (t.addTakings held.cls zone units).offerSettlement held.slot
      (held.settlement (a.debit (decide (held.cls = .service)) t.stepInForce units).working false) :=
  if_pos settled

/-- The attention unit after the takings of two debits in turn. -/
theorem Attention.takings_append (b : Attention) {before sum units : Nat} :
    (if 0 < units ∧ 4294967295 ≤ min 4294967295 (before + sum) + units then
      (if 0 < sum ∧ 4294967295 ≤ before + sum then b.takingsRaised else b).takingsRaised
     else if 0 < sum ∧ 4294967295 ≤ before + sum then b.takingsRaised else b) =
    if 0 < sum + units ∧ 4294967295 ≤ before + (sum + units) then b.takingsRaised else b := by
  by_cases first : 0 < sum ∧ 4294967295 ≤ before + sum
  · rw [if_pos first, Attention.takingsRaised_twice, ite_self, if_pos (by omega)]
  · rw [if_neg first]
    exact if_congr (by omega) rfl rfl

/-- One more charge is paid. -/
theorem State.pays.charge (h : s.pays t p held zone xs a c) (units : Nat) (d : Position) :
    s.pays ((t.charged held zone a units).withCtx p d) p held zone (xs ++ [units])
      (a.debit (decide (held.cls = .service)) s.stepInForce units) d := by
  have counter : t.tariff.takings[counterIndex held.cls zone] =
      min 4294967295 (s.tariff.takings[counterIndex held.cls zone] + xs.sum) := (h.takings _).trans (if_pos rfl)
  have step := h.only.stepInForce
  have offers : (t.addTakings held.cls zone units).offers (t.charged held zone a units) [held.slot] := charged_offers units
  have counts := addTakings_rest held.cls zone units t
  have rest := offers.rest
  have sum : (xs ++ [units]).sum = xs.sum + units := by rw [List.sum_append, List.sum_singleton]
  refine {
    only := { h.only.trans ((addTakings_onlyQueues held.cls zone units t _).trans offers.onlySettles.toonlyQueues) with }
    lines := ?_, positions := ?_, entries := ?_, port := ?_, takings := fun i => ?_, attention := ?_
    settled := ?_, unsettled := ?_ }
  · show (t.charged held zone a units).lines = _
    rw [rest, counts]
    exact h.lines
  · have same : (t.charged held zone a units).positions = t.positions := by rw [rest, counts]
    exact (congrArg (fun v : Vector Position 48 => v.set p.val d p.isLt) (same.trans h.positions)).trans
      (congrArg State.positions (State.withCtx_withCtx s p c d))
  · show (t.charged held zone a units).dir.entries = _
    rw [rest, counts]
    exact h.entries
  · refine h.port.trans ?_
    have marks := offers.port
    rw [counts] at marks
    exact marks
  · show (t.charged held zone a units).tariff.takings[i] = _
    rw [rest]
    show (t.addTakings held.cls zone units).tariff.takings[i] = _
    rw [addTakings_takings held.cls zone units (counter.trans_le (Nat.min_le_left _ _)), h.takings i, sum]
    split
    · omega
    · rfl
  · show (t.charged held zone a units).attention = _
    rw [rest]
    show (t.addTakings held.cls zone units).attention = _
    rw [addTakings_attention, counter, h.attention, sum, raiseTakingsFull_attention]
    exact Attention.takings_append s.attention
  · intro w mem
    by_cases settles : 0 < units ∧ t.stepInForce ≤ a.debited + units
    · rw [charged_settled settles]
      rw [step] at settles ⊢
      have taken : w = (a.debit (decide (held.cls = .service)) s.stepInForce units).working := by
        unfold Account.debit at mem ⊢
        rw [if_pos settles] at mem ⊢
        exact (Option.some.inj mem).symm
      rw [taken]
      exact offerSettlement_queues held.slot _ _
    · rw [charged_unsettled settles, counts]
      rw [step] at settles
      unfold Account.debit at mem
      rw [if_neg settles] at mem
      exact h.settled w mem
  · intro none
    have unsettled : ¬(0 < units ∧ t.stepInForce ≤ a.debited + units) ∧ a.settled = .none := by
      rw [step]
      unfold Account.debit at none
      dsimp only at none
      split at none
      · nomatch none
      · next unsettled => exact ⟨unsettled, none⟩
    rw [charged_unsettled unsettled.1, counts]
    exact h.unsettled unsettled.2

end

/-! ### A call metered (R90, R92, R103) -/

/-- A call as METERED keeps it: a timed call's interval timer runs. -/
def Call.running (k : Call) : Call :=
  { k with intervalTimer := if k.zone = 15 then none else some k.interval, graceTimer := none, amount := 0, sub := .old }

/-- The position in METERED, with the account of its card. -/
def Position.metered (held : Claim) (k : Call) (a : Account) (c : Position) : Position :=
  { c with
    state := .metered, working := a.working, debited := a.debited, call := some k.running
    order := { verdict := .accepted, warn := warnFor held.cls a.working k, shown := a.working } }

theorem Position.updateWarn_metered {c : Position} {held : Claim} {k : Call} (state : c.state = .metered)
    (claim : c.claim = some held) (call : c.call = some k) : c.updateWarn.settled =
      { c with order := { verdict := .accepted, warn := warnFor held.cls c.working k, shown := c.working } } := by
  cases c
  cases state
  cases claim
  cases call
  rfl

section
variable {s : State} {p : Pos} {c : Position} {held : Claim} {k : Call} {a : Account}

theorem addTakings_withCtx (cls : CardClass) (zone : BitVec 4) (units : Nat) (s : State) (p : Pos) (c : Position) :
    (s.withCtx p c).addTakings cls zone units = (s.addTakings cls zone units).withCtx p c := by
  unfold State.addTakings
  by_cases none : units = 0
  · rw [if_pos none, if_pos none]
  · rw [if_neg none, if_neg none]
    by_cases full : min Config.maxTakings (s.tariff.takings[counterIndex cls zone] + units) = Config.maxTakings
    · refine (if_pos full).trans (Eq.trans ?_ (congrArg (State.withCtx p c) (if_pos full).symm))
      rfl
    · refine (if_neg full).trans (Eq.trans ?_ (congrArg (State.withCtx p c) (if_neg full).symm))
      rfl

theorem offerSettlement_withCtx (s : State) (p : Pos) (c : Position) (x : Slot) (i : Image) :
    (s.withCtx p c).offerSettlement x i = (s.offerSettlement x i).withCtx p c := by
  unfold State.offerSettlement
  by_cases waits : s.hasWaitingValue x = true
  · rw [if_pos waits]
    exact if_pos waits
  · rw [if_neg waits]
    exact if_neg waits

theorem debit_held (claim : (s.ctx p).claim = some held) (zone : BitVec 4) (units : Nat) : s.debit p zone units =
    if units = 0 then s
    else
      let t := (s.addTakings held.cls zone units).onCtx p (Position.spend held.cls units)
      if t.stepInForce ≤ (t.ctx p).debited then t.checkpoint p else t := by
  unfold State.debit
  rw [claim]

theorem debit_eq {zone : BitVec 4} (claim : c.claim = some held) (working : a.working = c.working)
    (debited : a.debited = c.debited) (units : Nat) :
    ∃ order, (s.withCtx p c).debit p zone units = (s.charged held zone a units).withCtx p { c with
      working := (a.debit (decide (held.cls = .service)) s.stepInForce units).working
      debited := (a.debit (decide (held.cls = .service)) s.stepInForce units).debited
      order := order } := by
  rw [debit_held (by rw [State.ctx_withCtx_same]; exact claim)]
  dsimp only
  by_cases none : units = 0
  · subst none
    refine ⟨c.order, (if_pos rfl).trans ?_⟩
    rw [Account.debit_zero, charged_unsettled fun h => absurd h.1 (Nat.lt_irrefl 0), working, debited]
    rfl
  · rw [if_neg none, addTakings_withCtx, State.withCtx_onCtx, State.ctx_withCtx_same]
    have step := (addTakings_onlyQueues held.cls zone units s []).stepInForce
    have due : (Position.spend held.cls units c).settled.debited = a.debited + units := congrArg (· + units) debited.symm
    have left : (Position.spend held.cls units c).settled.working =
        (a.debit (decide (held.cls = .service)) s.stepInForce units).working := by
      rw [Account.debit_working, working]
      exact if_congr decide_eq_true_iff.symm rfl rfl
    rw [show ((s.addTakings held.cls zone units).withCtx p _).stepInForce = s.stepInForce from step, due]
    by_cases settles : s.stepInForce ≤ a.debited + units
    · have account : (a.debit (decide (held.cls = .service)) s.stepInForce units).debited = 0 := by
        unfold Account.debit
        rw [if_pos ⟨Nat.pos_of_ne_zero none, settles⟩]
      refine ⟨(Position.settled { (Position.spend held.cls units c).settled with debited := 0 }).order,
        (if_pos settles).trans ?_⟩
      rw [checkpoint_eq (k := held) (by rw [State.ctx_withCtx_same]; exact claim), State.ctx_withCtx_same,
        offerSettlement_withCtx, State.withCtx_withCtx, charged_settled ⟨Nat.pos_of_ne_zero none, settles⟩, account, ← left]
      rfl
    · have account : (a.debit (decide (held.cls = .service)) s.stepInForce units).debited = a.debited + units := by
        unfold Account.debit
        rw [if_neg fun h => settles h.2]
      refine ⟨(Position.spend held.cls units c).currentOrder, (if_neg settles).trans ?_⟩
      rw [charged_unsettled fun h => settles h.2, account, ← left, debited]
      rfl

/-- A call metered pays its charge and runs, with the warn flag of R88. -/
theorem meter_eq (claim : c.claim = some held) (working : a.working = c.working) (debited : a.debited = c.debited)
    (k : Call) (units : Nat) : (s.withCtx p c).meter p k units = (s.charged held k.zone a units).withCtx p
      (c.metered held k (a.debit (decide (held.cls = .service)) s.stepInForce units)) := by
  unfold State.meter
  dsimp only
  rw [State.withCtx_onCtx]
  obtain ⟨d, there⟩ : ∃ d : Position, d = Position.settled { c with state := .metered, call := some k.running } := ⟨_, rfl⟩
  obtain ⟨order, paid⟩ := debit_eq (s := s) (p := p) (a := a) (c := d) (zone := k.zone) (held := held) (by rw [there]; exact claim)
    (by rw [there]; exact working) (by rw [there]; exact debited) units
  show State.onCtx p Position.updateWarn (State.debit p k.zone units (s.withCtx p
    (Position.settled { c with state := .metered, call := some k.running }))) = _
  rw [← there, paid, State.withCtx_onCtx, Position.updateWarn_metered (k := k.running)
    (by rw [there]; rfl) (by rw [there]; exact claim) (by rw [there]; rfl), there]
  rfl

/-- A call metered pays one charge. -/
theorem meter_pays (claim : c.claim = some held) (most : s.tariff.takings[counterIndex held.cls k.zone] ≤ 4294967295)
    (units : Nat) : s.pays ((s.withCtx p c).meter p k units) p held k.zone [units]
      (s.account held.cls [units] c.working c.debited)
      (c.metered held k (s.account held.cls [units] c.working c.debited)) := by
  rw [meter_eq (a := s.account held.cls [] c.working c.debited) claim rfl rfl]
  exact (State.pays.nil (working := c.working) (debited := c.debited) most).charge units _

theorem State.pays.ctx_others {t : State} {zone : BitVec 4} {xs : List Nat} (h : s.pays t p held zone xs a c) {q : Pos}
    (other : q ≠ p) : t.ctx q = s.ctx q :=
  (State.ctx_of_positions h.positions q).trans (State.ctx_withCtx_other s other c)

theorem State.pays.ctx {t : State} {zone : BitVec 4} {xs : List Nat} (h : s.pays t p held zone xs a c) : t.ctx p = c :=
  (State.ctx_of_positions h.positions p).trans (State.ctx_withCtx_same s p c)

theorem Position.pays_iff (claim : c.claim = some held) (amount : Nat) :
    c.pays amount = true ↔ held.cls = .service ∨ amount ≤ c.working := by
  unfold Position.pays Position.cls
  rw [claim]
  exact (Bool.or_eq_true_iff.trans (or_congr decide_eq_true_iff decide_eq_true_iff))

/-- The entry to GRACE, or to CUT where the amount or the window forbids it (R98). -/
theorem enterGrace_settled (grace : c.state ≠ .grace) (window amount : Nat) (k : Call) :
    (c.enterGrace window amount k).settled =
      if 255 < amount then { c with state := .cut, call := none, order := .plain .cutOther 0 }
      else if window = 0 then { c with state := .cut, call := none, order := .plain .cutExhausted 0 }
      else { c with
        state := .grace, order := .plain .grace amount
        call := some { k with amount := amount, intervalTimer := none, graceTimer := some (10 * window), sub := .old } } := by
  unfold Position.enterGrace
  by_cases large : 255 < amount
  · rw [if_pos large, if_pos (show Config.maxAmount < amount from large)]
    exact enterCut_settled grace _
  · rw [if_neg large, if_neg (show ¬Config.maxAmount < amount from large)]
    by_cases closed : window = 0
    · rw [if_pos closed, if_pos closed]
      exact enterCut_settled grace _
    · rw [if_neg closed, if_neg closed]
      rfl

/-! ### The timers expire (O25, O26) -/

/-- An interval expiry in METERED, with the timer running. -/
theorem intervalExpiry_eq (metered : (s.ctx p).state = .metered) (call : (s.ctx p).call = some k)
    (timer : k.intervalTimer.isSome = true) (claim : (s.ctx p).claim = some held) : s.intervalExpiry p =
    match s.entryInForce k.zone with
    | none => (s.afterTariffRead k.zone).onCtx p (Position.enterCut .cutBarred)
    | some e =>
      if (s.ctx p).pays (k.charge (e.rateFor held.cls)) then
        s.meter p (k.fix (e.rateFor held.cls) e.interval.toNat) (k.charge (e.rateFor held.cls))
      else s.onCtx p (Position.enterGrace s.settings.graceWindow (k.charge (e.rateFor held.cls))
        (k.fix (e.rateFor held.cls) e.interval.toNat)) := by
  unfold State.intervalExpiry Position.cls
  dsimp only
  rw [metered, call, claim]
  refine (if_neg (by rw [Option.isNone_eq_false_iff.2 timer]; nofun)).trans ?_
  cases entry : s.entryInForce k.zone with
  | none => rfl
  | some e => rw [afterTariffRead_usable entry]

end

/-- An entry whose check fails raises TARIFF FAULT (R116). -/
theorem attentionAfterRead_faulty {s : State} {zone : BitVec 4}
    (faulty : (s.tariff.entry zone s.tariff.band).verifies = false) :
    (s.attentionAfterRead zone).tariffFault = some (zone, s.tariff.band) := by
  unfold State.attentionAfterRead
  rw [if_neg (by rw [faulty]; nofun)]
  exact (congrArg Attention.tariffFault (Attention.afterEvent_rest .tariffFault s.attention
    { s.attention with tariffFault := some (zone, s.tariff.band) }))

/-- A call cut in GRACE: a claim that was answered WAIT is not kept (R105). -/
theorem enterCut_grace {c : Position} {k : Call} (grace : c.state = .grace) (call : c.call = some k) (v : Verdict) :
    (c.enterCut v).settled = { c with
      state := .cut, call := none, order := .plain v 0
      candidate := if k.sub = .checking ∧ c.outstanding = none then none else c.candidate } := by
  have dropped : (decide (k.sub = .checking) && c.outstanding.isNone) = true ↔ k.sub = .checking ∧ c.outstanding = none := by
    rw [Bool.and_eq_true_iff, decide_eq_true_iff, Option.isNone_iff_eq_none]
  rw [← if_congr dropped rfl rfl]
  unfold Position.enterCut
  rw [grace, call]
  rfl

/-- A call cut for want of a usable entry (R89, R92, R116). -/
theorem cutBarred_eq {s : State} {p : Pos} {c : Position} (grace : c.state ≠ .grace) (zone : BitVec 4) :
    ((s.withCtx p c).afterTariffRead zone).onCtx p (Position.enterCut .cutBarred) =
      { s.withCtx p { c with state := .cut, call := none, order := .plain .cutBarred 0 } with
        attention := s.attentionAfterRead zone } := by
  rw [afterTariffRead_eq, attentionAfterRead_congr (s := s) (u := s.withCtx p c) rfl rfl zone, State.onCtx_eq,
    ← enterCut_settled grace]
  show State.withCtx p (Position.settled (Position.enterCut _ ((s.withCtx p c).ctx p))) _ = _
  rw [State.ctx_withCtx_same]
  exact congrArg (fun v : State => { v with attention := s.attentionAfterRead zone }) (State.withCtx_withCtx s p c _)

/-- Settles O26. -/
theorem callsThatAreNotPaid : Obligations.CallsThatAreNotPaid := by
  refine ⟨fun s p k held released _ metered call timer claim => ⟨fun barred => ?_, fun e entry service short => ?_⟩,
    fun s p k released grace call timer => ?_⟩
  · have cut := cutBarred_eq (s := s) (p := p) (c := s.ctx p) (by rw [metered]; nofun) k.zone
    rw [State.withCtx_same] at cut
    have next := done_event released (((intervalExpiry_eq metered call timer claim).trans (by rw [barred])).trans cut)
    exact ⟨_, next, rfl, fun verifies => if_pos verifies, attentionAfterRead_faulty⟩
  · refine done_event released ((intervalExpiry_eq metered call timer claim).trans ?_)
    rw [entry]
    refine (if_neg fun pays => ((Position.pays_iff claim _).1 pays).elim service (Nat.not_le_of_lt short)).trans ?_
    rw [State.onCtx_eq,
      enterGrace_settled (by rw [metered]; nofun), apply_ite (fun c => s.withCtx p c), apply_ite (fun c => s.withCtx p c)]
    rfl
  · refine done_event released ?_
    unfold State.graceExpiry
    rw [grace, call]
    refine (if_neg (by rw [Option.isNone_eq_false_iff.2 timer]; nofun)).trans ?_
    rw [State.onCtx_eq, enterCut_grace grace call]
    rfl

/-- Settles O25. -/
theorem intervalExpiryDebits : Obligations.IntervalExpiryDebits := by
  intro s p k held e released _ metered call timer pulsed free claim entry rate phase charge service counter W D settles pays most
  have next : exec (.intervalExpiry p) s = .next (s.meter p (k.fix rate e.interval.toNat) charge) := by
    refine done_event released ((intervalExpiry_eq metered call timer claim).trans ?_)
    rw [entry]
    exact if_pos ((Position.pays_iff claim _).2 (pays.imp_left of_decide_eq_true))
  have left := meter_pays (p := p) claim most (k := k.fix rate e.interval.toNat) charge
  rw [State.withCtx_same, show (k.fix rate e.interval.toNat).zone = k.zone from rfl] at left
  generalize State.meter p _ _ s = t at *
  have account : s.account held.cls [charge] (s.ctx p).working (s.ctx p).debited =
      if settles then { working := W, debited := 0, settled := some W } else { working := W, debited := D, settled := none } := rfl
  have working : (s.account held.cls [charge] (s.ctx p).working (s.ctx p).debited).working = W := by
    rw [account]
    split <;> rfl
  have debited : (s.account held.cls [charge] (s.ctx p).working (s.ctx p).debited).debited = if settles then 0 else D := by
    rw [account]
    split <;> rfl
  have sum : [charge].sum = charge := List.sum_singleton
  refine ⟨t, next, left.only, left.lines, fun q other => left.ctx_others other, left.entries, left.port, ?_, fun i => ?_,
    fun less => ?_, fun some full => ?_, fun is => ?_, fun not => left.unsettled ?_⟩
  · rw [left.ctx, Position.metered, working, debited, Call.running, if_neg (show (k.fix rate e.interval.toNat).zone ≠ 15 from pulsed),
      warnFor, show (k.fix rate e.interval.toNat).phase + 1 = phase + 2 from add_assoc phase 1 1, decide_not, ← metered]
    rfl
  · rw [left.takings i, sum]
  · rw [left.attention, sum]
    exact if_neg fun both => less.elim (Nat.pos_iff_ne_zero.1 both.1) (Nat.not_lt_of_le both.2)
  · rw [left.attention, sum, if_pos ⟨some, full⟩, raiseTakingsFull_attention, Attention.takingsRaised_eq]
  · have taken := left.settled W (by rw [account, if_pos is]; rfl)
    exact taken
  · rw [account, if_neg not]

end Sys2Proof.Machine
end

section
/-!
PROOFS. The answer of a call (O27).
-/

namespace Sys2Proof.Machine

theorem warnFor_eq (cls : CardClass) (w : Nat) (k : Call) : warnFor cls w k =
    decide (cls ≠ .service ∧ w < rateCharge k.rateUsed k.phase + rateCharge k.rateUsed (k.phase + 1)) :=
  (Bool.decide_and _ _).symm

/-- The call context of an answer, with its first charge fixed (R85, R89). -/
def answeredCall (zone pulse : BitVec 4) (rate interval : Nat) : Call :=
  { zone := zone, rateUsed := rate, interval := interval, phase := if zone = 15 then 0 else 1, intervalTimer := none
    amount := 0, graceTimer := none, lastPulse := if zone = 15 then some pulse else none, sub := .old }

theorem newCall_phaseAt (zone pulse : BitVec 4) (rate interval : Nat) : (newCall zone pulse rate interval).phaseAt rate = 0 :=
  if_pos rfl

theorem newCall_fixed (zone pulse : BitVec 4) (rate interval : Nat) :
    (if zone = 15 then newCall zone pulse rate interval else (newCall zone pulse rate interval).fix rate interval) =
      answeredCall zone pulse rate interval := by
  unfold answeredCall Call.fix
  rw [newCall_phaseAt]
  by_cases pulsed : zone = 15
  · rw [if_pos pulsed, if_pos pulsed, newCall, if_pos pulsed]
  · rw [if_neg pulsed, if_neg pulsed, newCall, if_neg pulsed]
    rfl

/-- The first charge of a call (R89). -/
def firstCharge (zone : BitVec 4) (e : TariffEntry) (rate : Nat) : Nat :=
  e.initialCharge.toNat + if zone = 15 then 0 else rateCharge rate 0

theorem answerEvent_eq {s : State} {p : Pos} {held : Claim} (claim : (s.ctx p).claim = some held) (zone pulse : BitVec 4) :
    s.answerEvent p zone pulse = match s.entryInForce zone with
    | none => (s.afterTariffRead zone).onCtx p (Position.enterCut .cutBarred)
    | some e =>
      let rate := e.rateFor held.cls
      let due := firstCharge zone e rate
      let call := answeredCall zone pulse rate e.interval.toNat
      if (s.ctx p).pays due then s.meter p call due
      else s.onCtx p (Position.enterGrace s.settings.graceWindow due call) := by
  unfold State.answerEvent Position.cls
  dsimp only
  rw [claim]
  cases entry : s.entryInForce zone with
  | none => rfl
  | some e =>
    dsimp only [Option.map_some]
    rw [afterTariffRead_usable entry, newCall_fixed, Call.charge, newCall_phaseAt]
    rfl

/-- Settles O27. -/
theorem theAnswerPaysTheFirstCharge : Obligations.TheAnswerPaysTheFirstCharge := by
  intro s l k bits held hears p c zone h leaves cut state claim present same call
  have takes := hears.byState state (by decide)
  have answers : (s.withCtx p h).reportByState p (reportFields bits) (c.completes bits) =
      (s.withCtx p h).answerEvent p zone (bits.extractLsb' 5 4) := by
    unfold State.reportByState State.heldReport
    rw [State.ctx_withCtx_same, show h.state = .held from state]
    refine (if_neg (by rw [show (reportFields bits).present = true from present]; nofun)).trans ?_
    obtain none | known := same
    · rw [none]
      exact if_neg call
    · rw [known, show h.claim = some held from claim]
      exact (if_neg fun differs => differs rfl).trans (if_neg call)
  rw [answerEvent_eq (held := held) (by rw [State.ctx_withCtx_same]; exact claim),
    entryInForce_congr (s := s) (u := s.withCtx p h) rfl, State.ctx_withCtx_same] at answers
  refine ⟨fun barred => takes _ (answers.trans ?_), fun e entry => ?_⟩
  · rw [barred]
    exact cutBarred_eq (by rw [show h.state = .held from state]; nofun) zone
  intro rate due first a
  rw [entry] at answers
  have pays : h.pays due = true ↔ held.cls = .service ∨ due ≤ c.working := Position.pays_iff claim due
  refine ⟨fun able most => ?_, fun service short => takes _ (answers.trans ((if_neg fun able => ?_).trans ?_))⟩
  · have paid := meter_pays (s := s) (p := p) (c := h) (k := answeredCall zone (bits.extractLsb' 5 4) rate e.interval.toNat)
      claim most due
    refine ⟨_, ?_, takes _ (answers.trans (if_pos (pays.2 able)))⟩
    rw [Position.metered, warnFor_eq] at paid
    exact paid
  · exact (pays.1 able).elim service (Nat.not_le_of_lt short)
  · rw [State.withCtx_onCtx, enterGrace_settled (by rw [show h.state = .held from state]; nofun)]
    rfl

end Sys2Proof.Machine
end

section
/-!
PROOFS. The pulses of a call, charged in turn and owed together (R94, R104).
-/

namespace Sys2Proof.Machine

/-! ### The charges of pulses (R84, R85, R94) -/

/-- The charges of `m` pulses in turn, the first at the phase `first` (R84). -/
def pulseCharges (rate : Nat) (first : Fin 4) (m : Nat) : List Nat :=
  (List.range m).map fun i => rateCharge rate (first + Fin.ofNat 4 i)

theorem pulseCharges_zero (rate : Nat) (first : Fin 4) : pulseCharges rate first 0 = [] := rfl

theorem add_ofNat_zero (first : Fin 4) : first + Fin.ofNat 4 0 = first := add_zero first

theorem add_ofNat_succ (first : Fin 4) (m : Nat) : first + Fin.ofNat 4 (m + 1) = first + 1 + Fin.ofNat 4 m := by
  ext
  simp only [Fin.ofNat, Fin.val_add]
  omega

theorem add_ofNat_add (first : Fin 4) (m n : Nat) :
    first + Fin.ofNat 4 (m + n) = first + Fin.ofNat 4 m + Fin.ofNat 4 n := by
  ext
  simp only [Fin.ofNat, Fin.val_add]
  omega

theorem pulseCharges_succ (rate : Nat) (first : Fin 4) (m : Nat) :
    pulseCharges rate first (m + 1) = rateCharge rate first :: pulseCharges rate (first + 1) m := by
  unfold pulseCharges
  rw [List.range_succ_eq_map, List.map_cons, add_ofNat_zero, List.map_map]
  exact congrArg _ (List.map_congr_left fun i _ => congrArg (rateCharge rate) (add_ofNat_succ first i))

theorem pulseCharges_add (rate : Nat) (first : Fin 4) (m n : Nat) :
    pulseCharges rate first (m + n) = pulseCharges rate first m ++ pulseCharges rate (first + Fin.ofNat 4 m) n := by
  unfold pulseCharges
  rw [List.range_add, List.map_append, List.map_map]
  exact congrArg _ (List.map_congr_left fun i _ => congrArg (rateCharge rate) (add_ofNat_add first m i))

/-- A call with `m` more charges fixed, at least one (R85). -/
def Call.paced (rate interval m : Nat) (k : Call) : Call :=
  { k with rateUsed := rate, interval := interval, phase := k.phaseAt rate + Fin.ofNat 4 m }

theorem Call.paced_phaseAt (k : Call) (rate interval m : Nat) :
    (k.paced rate interval m).phaseAt rate = k.phaseAt rate + Fin.ofNat 4 m := if_pos rfl

theorem Call.fix_eq_paced (k : Call) (rate interval : Nat) : k.fix rate interval = k.paced rate interval 1 := rfl

theorem Call.paced_paced (k : Call) (rate interval m n : Nat) :
    (k.paced rate interval m).paced rate interval n = k.paced rate interval (m + n) := by
  unfold Call.paced
  rw [show ({ k with rateUsed := rate, interval := interval, phase := k.phaseAt rate + Fin.ofNat 4 m } : Call).phaseAt rate =
    k.phaseAt rate + Fin.ofNat 4 m from if_pos rfl, add_ofNat_add]

theorem Call.owe_amount (rate interval n : Nat) (k : Call) :
    (Call.owe rate interval n k).1 = (pulseCharges rate (k.phaseAt rate) n).sum := by
  induction n generalizing k with
  | zero => rfl
  | succ n ih =>
    rw [pulseCharges_succ, List.sum_cons]
    show k.charge rate + (Call.owe rate interval n (k.fix rate interval)).1 = _
    rw [ih, Call.fix_eq_paced, Call.paced_phaseAt]
    rfl

theorem Call.owe_call (rate interval n : Nat) (k : Call) :
    (Call.owe rate interval (n + 1) k).2 = k.paced rate interval (n + 1) := by
  induction n generalizing k with
  | zero => rfl
  | succ n ih =>
    show (Call.owe rate interval (n + 1) (k.fix rate interval)).2 = _
    rw [ih, Call.fix_eq_paced, Call.paced_paced, Nat.add_comm]

/-! ### Pulses paid in turn -/

section
variable {s t : State} {p : Pos} {held : Claim} {xs : List Nat} {a : Account} {c : Position} {k : Call}
  {rate interval : Nat}

theorem State.pays.place {zone : BitVec 4} (h : s.pays t p held zone xs a c) (d : Position) :
    s.pays (t.withCtx p d) p held zone xs a d :=
  { h with
    only := { h.only with }
    positions := (congrArg (fun v : Vector Position 48 => v.set p.val d p.isLt) h.positions).trans
      (congrArg State.positions (State.withCtx_withCtx s p c d)) }

theorem chargePulses_succ (call : c.call = some k) (n : Nat) : (t.withCtx p c).chargePulses p rate interval (n + 1) =
    if c.pays (k.charge rate) then
      State.chargePulses p rate interval n ((t.withCtx p c).meter p (k.fix rate interval) (k.charge rate))
    else t.withCtx p (c.enterGrace t.settings.graceWindow (Call.owe rate interval (n + 1) k).1
      (Call.owe rate interval (n + 1) k).2).settled := by
  rw [State.chargePulses]
  dsimp only
  rw [State.ctx_withCtx_same, call]
  dsimp only
  rw [State.withCtx_onCtx]
  rfl

/-- The account of a card after more debits in turn. -/
def Account.debits (service : Bool) (step : Nat) (charges : List Nat) (a : Account) : Account :=
  charges.foldl (fun a units => a.debit service step units) a

theorem Position.metered_metered (held : Claim) (j : Call) {k k' : Call} (a b : Account) (c : Position)
    (same : k'.running = k.running) : (c.metered held j b).metered held k' a = c.metered held k a := by
  have phase : k'.phase = k.phase := (congrArg Call.phase same : k'.running.phase = k.running.phase)
  have used : k'.rateUsed = k.rateUsed := (congrArg Call.rateUsed same : k'.running.rateUsed = k.running.rateUsed)
  unfold Position.metered warnFor
  rw [same, phase, used]

theorem Call.running_paced (k : Call) (rate interval m n : Nat) :
    ((k.paced rate interval m).running.paced rate interval n).running = (k.paced rate interval (m + n)).running := by
  rw [← Call.paced_paced]
  rfl

theorem chargePulses_pays {e : Position} (paid : s.pays t p held k.zone xs a e) (call : c.call = some k)
    (claim : c.claim = some held) (working : a.working = c.working) (debited : a.debited = c.debited)
    (able : held.cls = .service ∨ k.charge rate ≤ c.working) (n : Nat) :
    (t.withCtx p c).chargePulses p rate interval (n + 1) =
      ((t.charged held k.zone a (k.charge rate)).withCtx p (c.metered held (k.fix rate interval)
        (a.debit (decide (held.cls = .service)) s.stepInForce (k.charge rate)))).chargePulses p rate interval n := by
  rw [chargePulses_succ call, if_pos ((Position.pays_iff claim _).2 able), meter_eq claim working debited,
    paid.only.stepInForce]
  rfl

/-- The first pulses are paid. -/
theorem chargePulses_paid (m : Nat) {e : Position} (paid : s.pays t p held k.zone xs a e) (call : c.call = some k)
    (claim : c.claim = some held) (working : a.working = c.working) (debited : a.debited = c.debited)
    (able : held.cls = .service ∨ (pulseCharges rate (k.phaseAt rate) (m + 1)).sum ≤ c.working) :
    ∃ u, s.pays u p held k.zone (xs ++ pulseCharges rate (k.phaseAt rate) (m + 1))
      (a.debits (decide (held.cls = .service)) s.stepInForce (pulseCharges rate (k.phaseAt rate) (m + 1)))
      (c.metered held (k.paced rate interval (m + 1))
        (a.debits (decide (held.cls = .service)) s.stepInForce (pulseCharges rate (k.phaseAt rate) (m + 1)))) ∧
    ∀ n, (t.withCtx p c).chargePulses p rate interval (m + 1 + n) = u.chargePulses p rate interval n := by
  induction m generalizing t xs a c k e with
  | zero =>
    rw [pulseCharges_succ, pulseCharges_zero] at able ⊢
    rw [List.sum_singleton] at able
    refine ⟨_, paid.charge _ _, fun n => ?_⟩
    rw [Nat.zero_add, Nat.add_comm]
    exact chargePulses_pays paid call claim working debited able n
  | succ m ih =>
    rw [pulseCharges_succ, List.sum_cons] at able
    have first : held.cls = .service ∨ k.charge rate ≤ c.working := able.imp_right (Nat.le_add_right _ _).trans
    obtain ⟨c', there⟩ : ∃ c', c' = c.metered held (k.fix rate interval)
      (a.debit (decide (held.cls = .service)) s.stepInForce (k.charge rate)) := ⟨_, rfl⟩
    have left : held.cls = .service ∨ (pulseCharges rate ((k.fix rate interval).running.phaseAt rate) (m + 1)).sum ≤ c'.working := by
      by_cases service : held.cls = .service
      · exact .inl service
      · refine .inr ?_
        have rest := able.resolve_left service
        have after : c'.working = c.working - k.charge rate := by
          rw [there, ← working]
          exact (Account.debit_working _ _ _ _).trans (if_neg (by rw [decide_eq_false service]; nofun))
        rw [after, show (k.fix rate interval).running.phaseAt rate = k.phaseAt rate + 1 from if_pos rfl]
        exact Nat.le_sub_of_add_le' rest
    obtain ⟨u, pays, charges⟩ := ih (k := (k.fix rate interval).running) (c := c') (paid.charge (k.charge rate) c')
      (by rw [there]; rfl) (by rw [there]; exact claim) (by rw [there]; rfl) (by rw [there]; rfl) left
    rw [show (k.fix rate interval).running.phaseAt rate = k.phaseAt rate + 1 from if_pos rfl, there,
      Position.metered_metered held _ _ _ _ (Nat.add_comm 1 (m + 1) ▸ Call.running_paced k rate interval 1 (m + 1)), List.append_assoc] at pays
    refine ⟨u, ?_, fun n => ?_⟩
    · rw [pulseCharges_succ]
      exact pays
    · rw [show m + 1 + 1 + n = m + 1 + n + 1 by omega, chargePulses_pays paid call claim working debited first, ← there]
      have rest := charges n
      rw [State.withCtx_withCtx] at rest
      exact rest

/-- The position once `owed` has become due that its card cannot pay, on a call `k` (R98). -/
def Position.owes (window owed : Nat) (k : Call) (c : Position) : Position :=
  if 255 < owed then { c with state := .cut, call := none, order := .plain .cutOther 0 }
  else if window = 0 then { c with state := .cut, call := none, order := .plain .cutExhausted 0 }
  else { c with
    state := .grace, order := .plain .grace owed
    call := some { k with amount := owed, intervalTimer := none, graceTimer := some (10 * window), sub := .old } }

theorem Position.owes_running (window owed : Nat) {k k' : Call} (same : k'.running = k.running) (c : Position) :
    c.owes window owed k' = c.owes window owed k := by
  have call : ∀ timer : Option Nat, ({ k' with amount := owed, intervalTimer := none, graceTimer := timer, sub := .old } : Call) =
      { k with amount := owed, intervalTimer := none, graceTimer := timer, sub := .old } := fun timer =>
    congrArg (fun j : Call => { j with amount := owed, intervalTimer := none, graceTimer := timer, sub := .old }) same
  unfold Position.owes
  rw [call]

theorem Account.debits_working (step : Nat) (charges : List Nat) (a : Account) :
    (a.debits false step charges).working = a.working - charges.sum := by
  induction charges generalizing a with
  | nil => rfl
  | cons x xs ih =>
    show (Account.debits false step xs (a.debit false step x)).working = _
    rw [ih, Account.debit_working, List.sum_cons, ← Nat.sub_sub]
    rfl

/-- From the first pulse that the card cannot pay all are owed. -/
theorem chargePulses_owes (grace : c.state ≠ .grace) (call : c.call = some k) (claim : c.claim = some held)
    (service : held.cls ≠ .service) (short : c.working < k.charge rate) (n : Nat) :
    (t.withCtx p c).chargePulses p rate interval (n + 1) = t.withCtx p (c.owes t.settings.graceWindow
      (pulseCharges rate (k.phaseAt rate) (n + 1)).sum (k.paced rate interval (n + 1))) := by
  rw [chargePulses_succ call, if_neg fun pays => ((Position.pays_iff claim _).1 pays).elim service (Nat.not_le_of_lt short),
    enterGrace_settled grace, Call.owe_amount, Call.owe_call]
  rfl

/-- The first `m` pulses are paid, and the others are owed. -/
theorem chargePulses_short (m n : Nat) (grace : c.state ≠ .grace) (call : c.call = some k)
    (claim : c.claim = some held) (service : held.cls ≠ .service)
    (most : s.tariff.takings[counterIndex held.cls k.zone] ≤ 4294967295)
    (able : (pulseCharges rate (k.phaseAt rate) m).sum ≤ c.working)
    (short : c.working < (pulseCharges rate (k.phaseAt rate) (m + 1)).sum) :
    let charges := pulseCharges rate (k.phaseAt rate)
    let a := s.account held.cls (charges m) c.working c.debited
    s.pays ((s.withCtx p c).chargePulses p rate interval (m + (n + 1))) p held k.zone (charges m) a
      (Position.owes s.settings.graceWindow ((charges (m + (n + 1))).sum - (charges m).sum)
        (k.paced rate interval (m + (n + 1))) { c with working := a.working, debited := a.debited }) := by
  intro charges a
  have owed : (charges (m + (n + 1))).sum - (charges m).sum =
      (pulseCharges rate (k.phaseAt rate + Fin.ofNat 4 m) (n + 1)).sum := by
    show (pulseCharges _ _ _).sum - _ = _
    rw [pulseCharges_add, List.sum_append, Nat.add_sub_cancel_left]
  have none := State.pays.nil (p := p) (working := c.working) (debited := c.debited) most
  rw [owed]
  cases m with
  | zero =>
    rw [Nat.zero_add, add_ofNat_zero, chargePulses_owes grace call claim service ?_]
    · exact none.place _
    · rw [pulseCharges_succ, pulseCharges_zero, List.sum_singleton] at short
      exact short
  | succ m =>
    obtain ⟨u, pays, rest⟩ := chargePulses_paid (interval := interval) m none call claim rfl rfl (.inr able)
    obtain ⟨b, account⟩ : ∃ b, b = a := ⟨_, rfl⟩
    obtain ⟨d, there⟩ : ∃ d, d = c.metered held (k.paced rate interval (m + 1)) b := ⟨_, rfl⟩
    have paid : s.pays u p held k.zone (charges (m + 1)) a d := by
      rw [there, account]
      exact pays
    have here := State.withCtx_same u p
    rw [paid.ctx] at here
    have next : d.working < (k.paced rate interval (m + 1)).running.charge rate := by
      have left : a.working = c.working - (charges (m + 1)).sum := by
        show (Account.debits (decide (held.cls = .service)) s.stepInForce (charges (m + 1)) _).working = _
        rw [decide_eq_false service, Account.debits_working]
      rw [pulseCharges_add, List.sum_append, pulseCharges_succ rate _ 0, pulseCharges_zero, List.sum_singleton,
        ← Call.paced_phaseAt k rate interval (m + 1)] at short
      rw [there, account]
      show a.working < _
      rw [left]
      exact Nat.sub_lt_left_of_lt_add able short
    rw [rest, ← here, chargePulses_owes (k := (k.paced rate interval (m + 1)).running) (by rw [there]; nofun) (by rw [there]; rfl)
      (by rw [there]; exact claim) service next n,
      show (k.paced rate interval (m + 1)).running.phaseAt rate = _ from Call.paced_phaseAt k rate interval (m + 1),
      paid.only.settings, Position.owes_running (k := k.paced rate interval (m + 1 + (n + 1)))]
    · rw [there, account]
      exact pays.place _
    · exact Call.running_paced k rate interval (m + 1) (n + 1)

end

end Sys2Proof.Machine
end

section
/-!
PROOFS. Reports in METERED (O28), and what the pulses of a report leave to the rest of it.
-/

namespace Sys2Proof.Machine

section
variable {s u : State} {l : LineIx} {k : Fin 8} {bits : BitVec 38} {p : Pos} {d : Position} {q : Call} {held : Claim}
  {pulse : BitVec 4}

/-! ### Reports whose pulses count nothing -/

theorem currentOrder_metered {d : Position} (metered : d.state = .metered) :
    d.currentOrder = { verdict := .accepted, warn := d.order.warn, shown := d.working } := by
  unfold Position.currentOrder
  rw [metered]

theorem settled_call (metered : d.state = .metered) (current : d.order = d.currentOrder) (call : Option Call) :
    Position.settled { d with call := call } = { d with call := call } :=
  settled_same (c := { d with call := call }) ((currentOrder_metered (d := { d with call := call }) metered).trans
    ((currentOrder_metered metered).symm.trans current.symm))

theorem countPulse_quiet (quiet : q.zone ≠ 15 ∨ q.lastPulse = some pulse) : q.countPulse pulse = q := by
  unfold Call.countPulse
  by_cases pulsed : q.zone = 15
  · rw [if_pos pulsed, ← quiet.resolve_left (absurd pulsed)]
  · exact if_neg pulsed

theorem newPulses_quiet (quiet : q.zone ≠ 15 ∨ q.lastPulse = some pulse) : q.newPulses pulse = 0 := by
  unfold Call.newPulses
  by_cases pulsed : q.zone = 15
  · rw [if_pos pulsed, quiet.resolve_left (absurd pulsed), Option.getD_some, BitVec.sub_self]
    rfl
  · exact if_neg pulsed

theorem newPulses_some {v : BitVec 4} (pulsed : q.zone = 15) (last : q.lastPulse = some v) :
    q.newPulses pulse = (pulse - v).toNat := by
  unfold Call.newPulses
  rw [if_pos pulsed, last, Option.getD_some]

theorem newPulses_ne {v : BitVec 4} (other : pulse ≠ v) : (pulse - v).toNat ≠ 0 := fun none =>
  other (sub_eq_zero.1 (BitVec.eq_of_toNat_eq none))

theorem meteredPulses_eq (call : (u.ctx p).call = some q) (claim : (u.ctx p).claim = some held) :
    u.meteredPulses p pulse =
      let t := u.onCtx p fun c => { c with call := some (q.countPulse pulse) }
      if q.newPulses pulse = 0 then t
      else match u.entryInForce q.zone with
        | none => (t.afterTariffRead q.zone).onCtx p (Position.enterCut .cutBarred)
        | some e => (t.afterTariffRead q.zone).chargePulses p (e.rateFor held.cls) e.interval.toNat (q.newPulses pulse) := by
  unfold State.meteredPulses Position.cls
  rw [call, claim] <;> rfl

theorem gracePulses_eq (call : (u.ctx p).call = some q) : u.gracePulses p pulse =
    let t := u.onCtx p fun c => { c with call := some (q.countPulse pulse) }
    if q.newPulses pulse = 0 then t
    else match u.entryInForce q.zone with
      | none => (t.afterTariffRead q.zone).onCtx p (Position.enterCut .cutBarred)
      | some e =>
        let owed := Call.owe (q.rateInGrace e (u.ctx p).cls) e.interval.toNat (q.newPulses pulse) (q.countPulse pulse)
        if Config.maxAmount < q.amount + owed.1 then (t.afterTariffRead q.zone).onCtx p (Position.enterCut .cutOther)
        else (t.afterTariffRead q.zone).onCtx p fun c => { c with call := some { owed.2 with amount := q.amount + owed.1 } } := by
  unfold State.gracePulses
  rw [call] <;> rfl

/-- The pulses of a report in METERED. -/
theorem pulses_metered (metered : d.state = .metered) (current : d.order = d.currentOrder) (call : d.call = some q)
    (claim : d.claim = some held) : (s.withCtx p d).pulses p pulse =
      if q.newPulses pulse = 0 then s.withCtx p { d with call := some (q.countPulse pulse) }
      else match s.entryInForce q.zone with
        | none => ((s.withCtx p { d with call := some (q.countPulse pulse) }).afterTariffRead q.zone).onCtx p
            (Position.enterCut .cutBarred)
        | some e => (s.withCtx p { d with call := some (q.countPulse pulse) }).chargePulses p (e.rateFor held.cls)
            e.interval.toNat (q.newPulses pulse) := by
  have counted := (State.withCtx_onCtx s p d fun c => { c with call := some (q.countPulse pulse) }).trans
    (congrArg (fun d => s.withCtx p d) (settled_call metered current _))
  rw [show (s.withCtx p d).pulses p pulse = (s.withCtx p d).meteredPulses p pulse by
      unfold State.pulses
      rw [State.ctx_withCtx_same, metered],
    meteredPulses_eq (q := q) (held := held) (by rw [State.ctx_withCtx_same]; exact call)
      (by rw [State.ctx_withCtx_same]; exact claim), counted]
  refine if_congr Iff.rfl rfl ?_
  rw [entryInForce_congr (s := s) (u := s.withCtx p d) rfl]
  cases entry : s.entryInForce q.zone with
  | none => rfl
  | some e => rw [afterTariffRead_usable (s := s.withCtx p _) entry]

/-- The pulses of a report in GRACE. -/
theorem pulses_grace (grace : d.state = .grace) (call : d.call = some q) : (s.withCtx p d).pulses p pulse =
    if q.newPulses pulse = 0 then s.withCtx p (Position.settled { d with call := some (q.countPulse pulse) })
    else match s.entryInForce q.zone with
      | none => ((s.withCtx p (Position.settled { d with call := some (q.countPulse pulse) })).afterTariffRead q.zone).onCtx p
          (Position.enterCut .cutBarred)
      | some e =>
        let owed := Call.owe (q.rateInGrace e d.cls) e.interval.toNat (q.newPulses pulse) (q.countPulse pulse)
        if Config.maxAmount < q.amount + owed.1 then
          s.withCtx p (Position.enterCut .cutOther (Position.settled { d with call := some (q.countPulse pulse) })).settled
        else s.withCtx p (Position.settled { Position.settled { d with call := some (q.countPulse pulse) } with
          call := some { owed.2 with amount := q.amount + owed.1 } }) := by
  rw [show (s.withCtx p d).pulses p pulse = (s.withCtx p d).gracePulses p pulse by
      unfold State.pulses
      rw [State.ctx_withCtx_same, grace],
    gracePulses_eq (q := q) (by rw [State.ctx_withCtx_same]; exact call), State.withCtx_onCtx]
  refine if_congr Iff.rfl rfl ?_
  rw [entryInForce_congr (s := s) (u := s.withCtx p d) rfl]
  cases entry : s.entryInForce q.zone with
  | none => rfl
  | some e =>
    rw [afterTariffRead_usable (s := s.withCtx p _) entry, State.ctx_withCtx_same]
    dsimp only
    rw [State.withCtx_onCtx, State.withCtx_onCtx]

/-- A position that has counted the pulses up to `pulse`, with the items that its state says. -/
structure Position.counted (pulse : BitVec 4) (d : Position) : Prop where
  current : d.order = d.currentOrder
  call : ∀ q ∈ d.call, q.zone ≠ 15 ∨ q.lastPulse = some pulse
  metered : d.state = .metered → d.call.isSome = true ∧ d.claim.isSome = true
  grace : d.state = .grace → d.call.isSome = true
  off : d.state ≠ .off
  lost : d.state ≠ .lost

theorem pulses_quiet (h : d.counted pulse) : (s.withCtx p d).pulses p pulse = s.withCtx p d := by
  by_cases metered : d.state = .metered
  · obtain ⟨called, claimed⟩ := h.metered metered
    obtain ⟨q, is⟩ := Option.isSome_iff_exists.1 called
    obtain ⟨held, claim⟩ := Option.isSome_iff_exists.1 claimed
    rw [pulses_metered metered h.current is claim, if_pos (newPulses_quiet (h.call q is)), countPulse_quiet (h.call q is), ← is]
  · by_cases graced : d.state = .grace
    · obtain ⟨q, is⟩ := Option.isSome_iff_exists.1 (h.grace graced)
      rw [pulses_grace graced is, if_pos (newPulses_quiet (h.call q is)), countPulse_quiet (h.call q is), ← is]
      exact withCtx_settled h.current.symm
    · exact pulses_none (by rw [State.ctx_withCtx_same]; exact metered) (by rw [State.ctx_withCtx_same]; exact graced) _

theorem Position.counted.met (h : d.counted pulse) (bits : BitVec 38) : (d.met bits).counted pulse := { h with }

/-- A report that counts no pulses is taken by its position's state. -/
theorem State.hears.quietly (h : s.hears l k bits) (counted : (s.ctx (posOf l k)).counted (bits.extractLsb' 5 4)) {t : State}
    (taken : (s.withCtx (posOf l k) ((s.ctx (posOf l k)).heard bits)).reportByState (posOf l k) (reportFields bits)
      ((s.ctx (posOf l k)).completes bits) = t) : s.closes l k t :=
  h.closes ((validReport_byState counted.current counted.off counted.lost (pulses_quiet (counted.met bits))).trans taken)

/-- Pulses that leave the state `u` leave the rest of the report to it. -/
theorem State.hears.follows (h : s.hears l k bits) (on : (s.ctx (posOf l k)).state = .metered ∨ (s.ctx (posOf l k)).state = .grace)
    (pins : u.pins = s.pins) (lines : u.lines = s.lines) (others : ∀ q, q ≠ posOf l k → u.ctx q = s.ctx q)
    (counted : (u.ctx (posOf l k)).counted (bits.extractLsb' 5 4))
    (pulses : (s.withCtx (posOf l k) ((s.ctx (posOf l k)).met bits)).pulses (posOf l k) (bits.extractLsb' 5 4) =
      u.withCtx (posOf l k) ((u.ctx (posOf l k)).met bits)) :
    exec (.slotWindowClose l) s = exec (.slotWindowClose l) u ∧
    ∀ t, (u.withCtx (posOf l k) ((u.ctx (posOf l k)).heard bits)).reportByState (posOf l k) (reportFields bits)
      ((u.ctx (posOf l k)).completes bits) = t → s.closes l k t := by
  have line : u.line l = s.line l := Upholds.line_of_lines lines l
  have hears : u.hears l k bits := {
    released := by rw [pins]; exact h.released
    state := by rw [line]; exact h.state
    phase := by rw [line]; exact h.phase
    report := by rw [line]; exact h.report
    orders := fun q => by
      by_cases here : q = posOf l k
      · rw [here]; exact counted.current
      · rw [others q here]; exact h.orders q }
  have byState := validReport_byState counted.current counted.off counted.lost (pulses_quiet (s := u) (p := posOf l k)
    (counted.met bits))
  have first : s.closes l k ((u.withCtx (posOf l k) ((u.ctx (posOf l k)).heard bits)).reportByState (posOf l k)
      (reportFields bits) ((u.ctx (posOf l k)).completes bits)) := by
    refine h.closes ((validReport_on (h.orders _) ?_ ?_ bits).trans ?_)
    · obtain on | on := on <;> rw [on] <;> nofun
    · obtain on | on := on <;> rw [on] <;> nofun
    · rw [pulses, ← byState, validReport_on counted.current counted.off counted.lost, pulses_quiet (counted.met bits)]
  exact ⟨first.trans (by rw [← line]; exact (hears.closes byState).symm), fun t taken => taken ▸ first⟩

/-! ### Reports that leave a call as it goes on -/

/-- A report that shows the card still there, and a zone, leaves the position as it is in METERED, in GRACE with its
first card, and in CUT. -/
theorem reportByState_stays {r : Report} {x : Option Serial} (present : r.present = true) (zone : r.zone ≠ 0)
    (same : x = none ∨ x = some held.serial) (claim : d.claim = some held)
    (on : d.state = .metered ∨ (d.state = .grace ∧ d.call.map Call.sub = some .old) ∨
      (d.state = .cut ∧ d.order.verdict ≠ .cutUnpaid)) :
    (s.withCtx p d).reportByState p r x = s.withCtx p d := by
  have known : differs x (d.claim.map Claim.serial) = false := differs_same (by rw [claim]; exact same)
  have here : r.present ≠ false := by rw [present]; nofun
  unfold State.reportByState
  rw [State.ctx_withCtx_same]
  obtain state | ⟨state, sub⟩ | ⟨state, verdict⟩ := on
  · rw [state]
    show State.meteredRest p r x _ = _
    unfold State.meteredRest
    rw [State.ctx_withCtx_same, if_neg zone, if_neg (not_or.2 ⟨here, by rw [known]; nofun⟩)]
  · rw [state]
    show State.graceRest p r x _ = _
    have card : (s.withCtx p d).graceCard p r x = s.withCtx p d := by
      unfold State.graceCard
      rw [State.ctx_withCtx_same]
      dsimp only
      rw [sub]
      refine (if_neg here).trans ?_
      obtain rfl | rfl := same
      · rfl
      · exact if_neg fun differ => differ (by rw [claim]; rfl)
    unfold State.graceRest
    rw [card]
    exact if_pos zone
  · rw [state]
    show State.cutReport p r x _ = _
    have card : (s.withCtx p d).cutCard p r x = s.withCtx p d := by
      unfold State.cutCard
      rw [State.ctx_withCtx_same]
      dsimp only
      rw [if_neg here, if_pos (by rw [claim]; rfl), if_neg (by rw [known]; nofun)]
    unfold State.cutReport
    rw [State.ctx_withCtx_same, if_neg verdict, card]
    exact if_neg zone

end

/-! ### The rest of a report whose pulses count -/

section
variable {s u t : State} {l : LineIx} {k : Fin 8} {bits : BitVec 38} {d : Position} {held : Claim}

/-- What remains of a report to a position that its pulses have left as `d`. -/
def State.goesOn (s u : State) (l : LineIx) (k : Fin 8) (bits : BitVec 38) (d : Position) : Prop :=
  exec (.slotWindowClose l) s = exec (.slotWindowClose l) u ∧
  ∀ held, d.claim = some held → d.completes bits = none ∨ d.completes bits = some held.serial →
    bits.getLsbD 30 = true → bits.extractLsb' 9 4 ≠ 0 →
    (d.state = .metered ∨ (d.state = .grace ∧ d.call.map Call.sub = some .old) ∨
      (d.state = .cut ∧ d.order.verdict ≠ .cutUnpaid)) →
    s.closes l k (u.withCtx (posOf l k) ((u.ctx (posOf l k)).heard bits))

theorem State.hears.goesOn (h : s.hears l k bits)
    (on : (s.ctx (posOf l k)).state = .metered ∨ (s.ctx (posOf l k)).state = .grace) (ctx : u.ctx (posOf l k) = d)
    (pins : u.pins = s.pins) (lines : u.lines = s.lines) (others : ∀ q, q ≠ posOf l k → u.ctx q = s.ctx q)
    (counted : d.counted (bits.extractLsb' 5 4))
    (pulses : (s.withCtx (posOf l k) ((s.ctx (posOf l k)).met bits)).pulses (posOf l k) (bits.extractLsb' 5 4) =
      u.withCtx (posOf l k) (d.met bits)) : s.goesOn u l k bits d := by
  obtain ⟨same, rest⟩ := h.follows on pins lines others (ctx ▸ counted) (by rw [ctx]; exact pulses)
  refine ⟨same, fun held claim known present zone state => rest _ ?_⟩
  rw [ctx]
  exact reportByState_stays (d := d.heard bits) present zone known claim state

/-- The same of pulses that leave the tariff's check and the position changed only. -/
theorem State.hears.goesOn_withCtx (h : s.hears l k bits)
    (on : (s.ctx (posOf l k)).state = .metered ∨ (s.ctx (posOf l k)).state = .grace) {a : Attention}
    (counted : d.counted (bits.extractLsb' 5 4))
    (pulses : (s.withCtx (posOf l k) ((s.ctx (posOf l k)).met bits)).pulses (posOf l k) (bits.extractLsb' 5 4) =
      { s.withCtx (posOf l k) (d.met bits) with attention := a }) :
    s.goesOn { s.withCtx (posOf l k) d with attention := a } l k bits d :=
  h.goesOn on (State.ctx_withCtx_same s _ d) rfl rfl (fun _ other => State.ctx_withCtx_other s other d) counted
    (pulses.trans (congrArg (fun v : State => { v with attention := a }) (State.withCtx_withCtx s _ d (d.met bits)).symm))

/-- The same of pulses that have been paid. -/
theorem State.hears.goesOn_pays (h : s.hears l k bits)
    (on : (s.ctx (posOf l k)).state = .metered ∨ (s.ctx (posOf l k)).state = .grace) {zone : BitVec 4} {xs : List Nat}
    {a : Account} (paid : s.pays t (posOf l k) held zone xs a (d.met bits)) (counted : d.counted (bits.extractLsb' 5 4))
    (pulses : (s.withCtx (posOf l k) ((s.ctx (posOf l k)).met bits)).pulses (posOf l k) (bits.extractLsb' 5 4) = t) :
    ∃ u, s.pays u (posOf l k) held zone xs a d ∧ s.goesOn u l k bits d := by
  have placed := paid.place d
  refine ⟨_, placed, h.goesOn on placed.ctx placed.only.pins placed.lines (fun _ other => placed.ctx_others other) counted ?_⟩
  have same := State.withCtx_same t (posOf l k)
  rw [paid.ctx] at same
  rw [pulses, State.withCtx_withCtx, same]

end

section
variable {c : Position} {window owed : Nat} {j : Call} {bits : BitVec 38} {pulse : BitVec 4}

theorem Position.metered_counted {held held' : Claim} {a : Account} (claim : c.claim = some held')
    (pulses : j.lastPulse = some pulse) : (c.metered held j a).counted pulse where
  current := rfl
  call _ mem := by cases mem; exact .inr pulses
  metered _ := ⟨rfl, Option.isSome_iff_exists.2 ⟨_, claim⟩⟩
  grace := nofun
  off := nofun
  lost := nofun

theorem Position.owes_met : (c.owes window owed j).met bits = (c.met bits).owes window owed j := by
  unfold Position.owes
  split
  · rfl
  · split <;> rfl

theorem Position.owes_kept : (c.owes window owed j).claim = c.claim ∧
    (c.owes window owed j).completes bits = c.completes bits := by
  unfold Position.owes
  split
  · exact ⟨rfl, rfl⟩
  · split <;> exact ⟨rfl, rfl⟩

/-- Owing leaves the call in GRACE with the same card, or cut. -/
theorem Position.owes_state : ((c.owes window owed j).state = .grace ∧ (c.owes window owed j).call.map Call.sub = some .old) ∨
    ((c.owes window owed j).state = .cut ∧ (c.owes window owed j).order.verdict ≠ .cutUnpaid) := by
  unfold Position.owes
  split
  · exact .inr ⟨rfl, nofun⟩
  · split
    · exact .inr ⟨rfl, nofun⟩
    · exact .inl ⟨rfl, rfl⟩

theorem Position.owes_counted (pulses : j.lastPulse = some pulse) : (c.owes window owed j).counted pulse := by
  unfold Position.owes
  split
  · exact ⟨rfl, nofun, nofun, nofun, nofun, nofun⟩
  · split
    · exact ⟨rfl, nofun, nofun, nofun, nofun, nofun⟩
    · exact ⟨rfl, fun _ mem => by cases mem; exact .inr pulses, nofun, fun _ => rfl, nofun, nofun⟩

end

/-! ### METERED (O28) -/

section
variable {s : State} {p : Pos} {d : Position} {r : Report} {x : Option Serial} {held : Claim}

/-- A position whose call on its card has been hung up (R96). -/
def Position.hungUp (d : Position) : Position :=
  { d with state := .held, call := none, order := .plain .accepted d.working }

theorem hangUp_withCtx : (s.withCtx p d).hangUp p = s.withCtx p d.hungUp := State.withCtx_onCtx s p d _

/-- A card that has left or been swapped in METERED, without zone 0 (R97). -/
theorem meteredRest_cut (grace : d.state ≠ .grace) (zone : r.zone ≠ 0) (claim : d.claim = some held)
    (gone : r.present = false ∨ differs x (some held.serial) = true) : (s.withCtx p d).meteredRest p r x =
      (s.handBack held.slot (held.settlement d.working false)).withCtx p { d.emptied with
        state := .cut, call := none, order := .plain .cutOther 0 } := by
  have left : (s.withCtx p d).meteredRest p r x =
      ((s.withCtx p d).endClaim p false).onCtx p (Position.enterCut .cutOther) := by
    unfold State.meteredRest
    rw [State.ctx_withCtx_same, if_neg zone, show d.claim.map Claim.serial = some held.serial by rw [claim]; rfl]
    exact if_pos gone
  rw [left, endClaim_withCtx claim, State.withCtx_onCtx]
  exact congrArg (fun e => State.withCtx p e _) (enterCut_settled (c := d.dropClaim.settled) grace .cutOther)

theorem meteredRest_hangUp (zone : r.zone = 0) : (s.withCtx p d).meteredRest p r x =
    (s.withCtx p d.hungUp).heldReport p r x :=
  (if_pos zone).trans (congrArg (State.heldReport p r x) hangUp_withCtx)

theorem heldReport_rests (present : r.present = true) (zone : r.zone = 0) (same : x = none ∨ x = some held.serial)
    (claim : d.claim = some held) : (s.withCtx p d).heldReport p r x = s.withCtx p d := by
  unfold State.heldReport
  refine (if_neg (by rw [present]; nofun)).trans ?_
  obtain rfl | rfl := same
  · exact if_pos zone
  · dsimp only
    rw [State.ctx_withCtx_same, claim]
    exact (if_neg fun differs => differs rfl).trans (if_pos zone)

/-- The card has left a position in HELD, and the report shows zone 0. -/
theorem heldReport_left (absent : r.present = false) (zone : r.zone = 0) (claim : d.claim = some held) :
    (s.withCtx p d).heldReport p r x = (s.handBack held.slot (held.settlement d.working false)).withCtx p
      { d.emptied with state := .vacant, candidate := none, order := .plain .none 0 } := by
  refine (if_pos absent).trans ?_
  rw [endClaim_withCtx claim, cardLeft_eq, vacantReport_rests absent zone]
  rfl

/-- Another card has been met in HELD (R69). -/
theorem heldReport_swapped {y : Serial} (present : r.present = true) (held' : d.state = .held) (claim : d.claim = some held)
    (other : y ≠ held.serial) : (s.withCtx p d).heldReport p r (some y) =
      ((s.handBack held.slot (held.settlement d.working false)).withCtx p
        { d.emptied with order := .plain .accepted 0 }).sendClaim p y := by
  unfold State.heldReport
  refine (if_neg (by rw [present]; nofun)).trans ?_
  dsimp only
  rw [State.ctx_withCtx_same]
  refine (if_pos (by rw [claim]; exact fun e => other (Option.some_injective _ e))).trans ?_
  rw [endClaim_withCtx claim, emptied_held held']

end

/-- Settles O28. -/
theorem reportsInMetered : Obligations.ReportsInMetered := by
  intro s l k bits q held hears p c present zone pulse h cut leaves same state call claim
  refine ⟨fun quiet => ?_, fun v pulsed last other => ?_⟩
  · have counted : c.counted pulse := {
      current := hears.orders p
      call := fun j mem => by cases call.symm.trans mem; exact quiet
      metered := fun _ => ⟨Option.isSome_iff_exists.2 ⟨_, call⟩, Option.isSome_iff_exists.2 ⟨_, claim⟩⟩
      grace := fun _ => Option.isSome_iff_exists.2 ⟨_, call⟩
      off := by rw [state]; nofun
      lost := by rw [state]; nofun }
    have takes : ∀ t, (s.withCtx p h).meteredRest p (reportFields bits) (c.completes bits) = t → s.closes l k t := by
      intro t taken
      refine hears.quietly counted (Eq.trans ?_ taken)
      unfold State.reportByState
      rw [State.ctx_withCtx_same, show (Position.heard bits (s.ctx (posOf l k))).state = .metered from state]
    refine ⟨fun shown is goes => ?_, fun shown is rests => takes _ ?_, fun goes gone => ⟨_, handBack_settles held _, takes _ ?_⟩,
      fun rests absent => ⟨_, handBack_settles held _, takes _ ?_⟩,
      fun x met differ rests => ⟨_, handBack_settles held _, takes _ ?_⟩⟩
    · exact hears.quietly counted (reportByState_stays (d := h) shown goes is claim (.inl state))
    · exact (meteredRest_hangUp (s := s) (p := p) rests).trans (heldReport_rests (d := h.hungUp) shown rests is claim)
    · refine (meteredRest_cut (d := h) (by rw [show h.state = .metered from state]; nofun) goes claim (gone.imp_right fun differ => ?_)).trans rfl
      obtain ⟨x, met⟩ := Option.ne_none_iff_exists'.1 fun none => differ (.inl none)
      rw [met]
      exact differs_some fun e => differ (.inr (met.trans e.symm))
    · exact (meteredRest_hangUp (s := s) (p := p) rests).trans (heldReport_left (d := h.hungUp) absent rests claim)
    · rw [met]
      exact (meteredRest_hangUp (s := s) (p := p) rests).trans
        (heldReport_swapped (d := h.hungUp) (Position.completes_present met) rfl claim differ)
  · have notGrace : c.state ≠ .grace := by rw [state]; nofun
    obtain ⟨j, there⟩ : ∃ j : Call, j = { q with lastPulse := some pulse } := ⟨_, rfl⟩
    have charged : (s.withCtx p (c.met bits)).pulses p pulse = match s.entryInForce 15 with
        | none => ((s.withCtx p { c.met bits with call := some j }).afterTariffRead 15).onCtx p (Position.enterCut .cutBarred)
        | some e => (s.withCtx p { c.met bits with call := some j }).chargePulses p (e.rateFor held.cls)
            e.interval.toNat (pulse - v).toNat := by
      rw [pulses_metered (d := c.met bits) state (hears.orders p) call claim, newPulses_some pulsed last,
        if_neg (newPulses_ne other), pulsed, there, Call.countPulse, if_pos pulsed]
    refine ⟨fun barred => ?_, fun e entry most => ?_⟩
    · rw [barred] at charged
      have goes := hears.goesOn_withCtx (.inl state) (d := cut .cutBarred c) (a := s.attentionAfterRead 15)
        ⟨rfl, nofun, nofun, nofun, nofun, nofun⟩
        (charged.trans (cutBarred_eq (c := { c.met bits with call := some j }) notGrace 15))
      exact ⟨goes.1, fun shown is call => goes.2 held claim is shown call (.inr (.inr ⟨rfl, nofun⟩))⟩
    · intro n rate first charges account after pays
      rw [entry] at charged
      have zone15 : j.zone = 15 := by rw [there]; exact pulsed
      have start : j.phaseAt rate = first := by rw [there]; rfl
      have counts : j.lastPulse = some pulse := by rw [there]
      obtain ⟨m, counted⟩ : ∃ m, (pulse - v).toNat = m + 1 := Nat.exists_eq_succ_of_ne_zero (newPulses_ne other)
      refine ⟨fun able => ?_, fun m less service able short => ?_⟩
      · obtain ⟨u, paid, rest⟩ := chargePulses_paid (interval := e.interval.toNat)
          (c := { c.met bits with call := some j }) m (State.pays.nil (p := p) (working := c.working) (debited := c.debited)
            (zone := j.zone) (by rw [zone15]; exact most)) rfl claim rfl rfl (by rw [start, ← counted]; exact able)
        have all := charged.trans ((congrArg (fun n => State.chargePulses p rate e.interval.toNat n _) counted).trans (rest 0))
        rw [zone15, start, ← counted] at paid
        obtain ⟨w, paid, goes⟩ := hears.goesOn_pays (d := c.metered held (j.paced rate e.interval.toNat n) (account n))
          (.inl state) paid (Position.metered_counted claim counts) all
        have shape : c.metered held (j.paced rate e.interval.toNat n) (account n) = { c with
            working := (account n).working, debited := (account n).debited, call := some { after with amount := 0 }
            order := { verdict := .accepted, shown := (account n).working
                       warn := decide (held.cls ≠ .service ∧ (account n).working <
                         rateCharge rate after.phase + rateCharge rate (after.phase + 1)) } } := by
          rw [Position.metered, warnFor_eq, Call.running,
            if_pos (show (j.paced rate e.interval.toNat n).zone = 15 from zone15), ← state, there]
          rfl
        rw [shape] at paid goes
        exact ⟨w, paid, goes.1, fun shown is call => goes.2 held claim is shown call (.inl state)⟩
      · have bound : ∀ z, z = (15 : BitVec 4) → s.tariff.takings[counterIndex held.cls z] ≤ 4294967295 := by
          rintro _ rfl
          exact most
        obtain ⟨i, rest⟩ : ∃ i, n = m + (i + 1) := ⟨n - m - 1, by omega⟩
        have paid := chargePulses_short (s := s) (p := p) (c := { c.met bits with call := some j }) (rate := rate)
          (interval := e.interval.toNat) m i notGrace rfl claim service (bound _ zone15)
          (by rw [start]; exact able) (by rw [start]; exact short)
        rw [zone15, start, ← rest] at paid
        obtain ⟨w, placed, goes⟩ := hears.goesOn_pays (d := Position.owes s.settings.graceWindow
            ((charges n).sum - (charges m).sum) (j.paced rate e.interval.toNat n)
            { c with working := (account m).working, debited := (account m).debited })
          (.inl state) (by rw [Position.owes_met]; exact paid) (Position.owes_counted counts) charged
        obtain ⟨kept, completes⟩ := Position.owes_kept (window := s.settings.graceWindow)
          (owed := (charges n).sum - (charges m).sum) (j := j.paced rate e.interval.toNat n) (bits := bits)
          (c := { c with working := (account m).working, debited := (account m).debited })
        have rest := fun shown is call => goes.2 held (kept.trans claim) (by rw [completes]; exact is) shown call
          (.inr Position.owes_state)
        have same := goes.1
        rw [there] at placed
        exact ⟨w, placed, same, rest⟩

end Sys2Proof.Machine
end

section
/-!
PROOFS. How a claim is sent, tested on its arrival, and answered (O47).
-/

namespace Sys2Proof.Machine

section
variable {s : State} {p : Pos} {y : Serial}

/-! ### Orders by state -/

theorem settled_grace {d : Position} {k : Call} (state : d.state = .grace) (call : d.call = some k) :
    d.settled = { d with order := if k.sub = .refused then d.showsRefusal else .plain .grace k.amount } := by
  have order : d.currentOrder = if k.sub = .refused then d.showsRefusal else .plain .grace k.amount := by
    unfold Position.currentOrder
    rw [state, call]
    rfl
  exact congrArg (fun o => { d with order := o }) order

/-- A position in GRACE whose card sub-state has been set. -/
theorem setSub_settled {d : Position} {k : Call} (state : d.state = .grace) (call : d.call = some k) (sub : SubState) :
    (d.setSub sub).settled = { d with
      call := some { k with sub := sub }, order := if sub = .refused then d.showsRefusal else .plain .grace k.amount } := by
  have set : d.setSub sub = { d with call := some { k with sub := sub } } := by
    unfold Position.setSub
    rw [call]
    rfl
  rw [set]
  exact settled_grace (d := { d with call := some { k with sub := sub } }) state rfl

theorem currentOrder_cut {d : Position} (state : d.state = .cut) : d.currentOrder = .plain d.order.verdict 0 := by
  unfold Position.currentOrder
  rw [state]
  rfl

theorem settled_cut {d : Position} (state : d.state = .cut) (order : d.order = .plain d.order.verdict 0) : d.settled = d :=
  settled_same ((currentOrder_cut state).trans order.symm)

/-! ### The answer to a claim -/

/-- A position whose claim has been answered. -/
def Position.answered (c : Position) : Position := { c with outstanding := none }

theorem withCtx_answered (current : (s.ctx p).order = (s.ctx p).currentOrder) :
    (s.onCtx p fun c => { c with outstanding := none }) = s.withCtx p (s.ctx p).answered := by
  rw [State.onCtx_eq]
  exact withCtx_settled (c := (s.ctx p).answered) current.symm

theorem takeAnswer_checking (current : (s.ctx p).order = (s.ctx p).currentOrder) (state : (s.ctx p).state = .checking)
    (outstanding : (s.ctx p).outstanding = some { serial := y, abandoned := false }) :
    (∀ x cls i, s.takeAnswer p (.accepted x cls i) = s.withCtx p
      { Position.takeCard x y cls i (s.ctx p).answered with
        state := .held, order := .plain .accepted i.balance }) ∧
    (∀ r, s.takeAnswer p (.refused r) = s.withCtx p
      (Position.settled { Position.takeRefusal y r (s.ctx p).answered with state := .refused })) ∧
    s.takeAnswer p .wait = s.withCtx p { (s.ctx p).answered with state := .waiting, order := .plain .wait 0 } := by
  refine ⟨fun x cls i => ?_, fun r => ?_, ?_⟩
  all_goals
    unfold State.takeAnswer
    rw [outstanding]
    dsimp only
    rw [state, withCtx_answered current]
    refine (if_neg nofun).trans ?_
    exact State.withCtx_onCtx _ _ _ _

theorem takeAnswer_cut (current : (s.ctx p).order = (s.ctx p).currentOrder) (state : (s.ctx p).state = .cut)
    (outstanding : (s.ctx p).outstanding = some { serial := y, abandoned := false }) :
    (∀ x cls i, s.takeAnswer p (.accepted x cls i) = s.withCtx p
      (Position.takeCard x y cls i (s.ctx p).answered)) ∧
    (∀ r, s.takeAnswer p (.refused r) = s.withCtx p (Position.takeRefusal y r (s.ctx p).answered)) ∧
    s.takeAnswer p .wait = s.withCtx p { (s.ctx p).answered with candidate := none } := by
  have plain : (s.ctx p).order = .plain (s.ctx p).order.verdict 0 := current.trans (currentOrder_cut state)
  refine ⟨fun x cls i => ?_, fun r => ?_, ?_⟩
  all_goals
    unfold State.takeAnswer
    rw [outstanding]
    dsimp only
    rw [state, withCtx_answered current]
    refine (if_neg nofun).trans ?_
    refine (State.withCtx_onCtx _ _ _ _).trans (congrArg (fun d => s.withCtx p d) (settled_cut ?_ ?_))
    · exact state
    · exact plain

section
variable {k : Call}

theorem takeAnswer_grace (current : (s.ctx p).order = (s.ctx p).currentOrder) (state : (s.ctx p).state = .grace)
    (outstanding : (s.ctx p).outstanding = some { serial := y, abandoned := false }) :
    (∀ x cls i, s.takeAnswer p (.accepted x cls i) = (s.withCtx p
      (Position.takeCard x y cls i (s.ctx p).answered).settled).gracePayment p) ∧
    (∀ r, s.takeAnswer p (.refused r) = s.withCtx p
      ((Position.takeRefusal y r (s.ctx p).answered).setSub .refused).settled) ∧
    s.takeAnswer p .wait = s.withCtx p (s.ctx p).answered := by
  refine ⟨fun x cls i => ?_, fun r => ?_, ?_⟩
  all_goals
    unfold State.takeAnswer
    rw [outstanding]
    dsimp only
    rw [state, withCtx_answered current]
    refine (if_neg nofun).trans ?_
  · exact congrArg (State.gracePayment p) (State.withCtx_onCtx _ _ _ _)
  · exact State.withCtx_onCtx _ _ _ _
  · rfl

/-- A card that pays in GRACE, or is handed back (R103). -/
theorem gracePayment_eq {d : Position} {held : Claim} (call : d.call = some k) (claim : d.claim = some held) :
    (s.withCtx p d).gracePayment p =
      if d.pays k.amount then (s.withCtx p d).meter p k k.amount
      else (s.handBack held.slot (held.settlement d.working false)).withCtx p (Position.settled (Position.setSub .refused
        { d.dropClaim.settled with
          refusedSerial := some held.serial, refusedVerdict := .refusedLow, refusedBalance := d.working })) := by
  unfold State.gracePayment
  rw [State.ctx_withCtx_same]
  dsimp only
  rw [call, claim]
  dsimp only
  rw [endClaim_withCtx claim, State.withCtx_onCtx]

end

/-- A card that has been handed back in GRACE (R103). -/
def Position.handedBack (held : Claim) (k : Call) (d : Position) : Position :=
  { d with
    claim := none, claimBalance := 0, working := 0, debited := 0, refusedSerial := some held.serial
    refusedVerdict := .refusedLow, refusedBalance := d.working, call := some { k with sub := .refused }
    order := .plain .refusedLow d.working }

theorem gracePayment_short {d : Position} {held : Claim} {k : Call} (state : d.state = .grace) (call : d.call = some k)
    (claim : d.claim = some held) (service : held.cls ≠ .service) (short : d.working < k.amount) :
    (s.withCtx p d).gracePayment p =
      (s.handBack held.slot (held.settlement d.working false)).withCtx p (d.handedBack held k) := by
  rw [gracePayment_eq call claim, if_neg fun pays => ((Position.pays_iff claim _).1 pays).elim service (Nat.not_le_of_lt short),
    setSub_settled (d := { d.dropClaim.settled with
      refusedSerial := some held.serial, refusedVerdict := .refusedLow, refusedBalance := d.working }) state call .refused]
  rfl

/-- A card that is accepted in GRACE but cannot pay the amount is handed back (R103). -/
theorem takeAnswer_grace_short {q : Call} {x : Slot} {cls : CardClass} {i : Image}
    (current : (s.ctx p).order = (s.ctx p).currentOrder) (state : (s.ctx p).state = .grace) (call : (s.ctx p).call = some q)
    (outstanding : (s.ctx p).outstanding = some { serial := y, abandoned := false })
    (service : cls ≠ .service) (short : i.balance < q.amount) :
    s.takeAnswer p (.accepted x cls i) =
      (s.handBack x (Claim.settlement { slot := x, serial := y, cls := cls, image := i } i.balance false)).withCtx p
        (Position.handedBack { slot := x, serial := y, cls := cls, image := i } q
          (Position.takeCard x y cls i (s.ctx p).answered)) :=
  ((takeAnswer_grace current state outstanding).1 x cls i).trans
    (gracePayment_short (d := (Position.takeCard x y cls i (s.ctx p).answered).settled) state call rfl service short)

/-- A card that is accepted in GRACE and can pay the amount is metered (R103). -/
theorem takeAnswer_grace_pays {q : Call} {x : Slot} {cls : CardClass} {i : Image}
    (current : (s.ctx p).order = (s.ctx p).currentOrder) (state : (s.ctx p).state = .grace) (call : (s.ctx p).call = some q)
    (outstanding : (s.ctx p).outstanding = some { serial := y, abandoned := false })
    (pays : cls = .service ∨ q.amount ≤ i.balance) (most : s.tariff.takings[counterIndex cls q.zone] ≤ 4294967295) :
    s.pays (s.takeAnswer p (.accepted x cls i)) p { slot := x, serial := y, cls := cls, image := i } q.zone [q.amount]
      (s.account cls [q.amount] i.balance 0)
      (Position.metered { slot := x, serial := y, cls := cls, image := i } q (s.account cls [q.amount] i.balance 0)
        (Position.takeCard x y cls i (s.ctx p).answered)) := by
  obtain ⟨d, there⟩ : ∃ d, d = (Position.takeCard x y cls i (s.ctx p).answered).settled := ⟨_, rfl⟩
  have claim : d.claim = some { slot := x, serial := y, cls := cls, image := i } := by rw [there]; rfl
  have working : d.working = i.balance := by rw [there]; rfl
  have left := meter_pays (s := s) (p := p) (k := q) claim most q.amount
  rw [working, show d.debited = 0 by rw [there]; rfl] at left
  rw [(takeAnswer_grace current state outstanding).1, ← there, gracePayment_eq (k := q) (by rw [there]; exact call) claim,
    if_pos ((Position.pays_iff claim _).2 (working.symm ▸ pays))]
  rw [there] at left ⊢
  exact left

theorem takeAnswer_abandoned (current : (s.ctx p).order = (s.ctx p).currentOrder)
    (outstanding : (s.ctx p).outstanding = some { serial := y, abandoned := true }) :
    (∀ x cls i, s.takeAnswer p (.accepted x cls i) =
      (s.handBack x (Claim.settlement { slot := x, serial := y, cls := cls, image := i } i.balance false)).withCtx p
        (s.ctx p).answered) ∧
    (∀ r, s.takeAnswer p (.refused r) = s.withCtx p (s.ctx p).answered) ∧
    s.takeAnswer p .wait = s.withCtx p (s.ctx p).answered := by
  refine ⟨fun x cls i => ?_, fun r => ?_, ?_⟩
  all_goals
    unfold State.takeAnswer
    rw [outstanding]
    dsimp only
    rw [withCtx_answered current]
    refine (if_pos rfl).trans ?_
  · exact handBack_withCtx _ _ _ _ _
  · rfl
  · rfl

/-! ### A claim sent -/

section
variable {x : Serial}

theorem sendClaim_outstanding (outstanding : (s.ctx p).outstanding ≠ none) (state : (s.ctx p).state ≠ .grace) :
    s.sendClaim p x = s.withCtx p { s.ctx p with
      state := .reading, candidate := none, highHalf := none, order := .plain .none 0 } := by
  unfold State.sendClaim
  dsimp only
  rw [if_pos (Option.isSome_iff_ne_none.2 outstanding), State.onCtx_eq, if_neg state]
  rfl

theorem sendClaim_sent (outstanding : (s.ctx p).outstanding = none) (state : (s.ctx p).state ≠ .grace) :
    s.sendClaim p x = ((s.withCtx p { s.ctx p with
      state := .checking, candidate := some x, outstanding := some { serial := x, abandoned := false }
      order := .plain .wait 0 }).claimArrives x p).1 := by
  unfold State.sendClaim
  dsimp only
  rw [if_neg (by rw [outstanding]; nofun), State.onCtx_eq, if_neg state]
  rfl

variable {q : Call}

theorem sendClaim_grace_outstanding (outstanding : (s.ctx p).outstanding ≠ none) (state : (s.ctx p).state = .grace)
    (call : (s.ctx p).call = some q) : s.sendClaim p x = s.withCtx p { s.ctx p with
      candidate := none, highHalf := none, call := some { q with sub := .reading }, order := .plain .grace q.amount } := by
  have set := setSub_settled (d := { s.ctx p with candidate := none, highHalf := none }) state call .reading
  unfold State.sendClaim
  dsimp only
  rw [if_pos (Option.isSome_iff_ne_none.2 outstanding), State.onCtx_eq, if_pos state]
  exact congrArg (fun d => s.withCtx p d) set

theorem sendClaim_grace_sent (outstanding : (s.ctx p).outstanding = none) (state : (s.ctx p).state = .grace)
    (call : (s.ctx p).call = some q) : s.sendClaim p x = ((s.withCtx p { s.ctx p with
      candidate := some x, outstanding := some { serial := x, abandoned := false }
      call := some { q with sub := .checking }, order := .plain .grace q.amount }).claimArrives x p).1 := by
  have set := setSub_settled (d := { s.ctx p with
    candidate := some x, outstanding := some { serial := x, abandoned := false } }) state call .checking
  unfold State.sendClaim
  dsimp only
  rw [if_neg (by rw [outstanding]; nofun), State.onCtx_eq, if_pos state]
  exact congrArg (fun d => ((s.withCtx p d).claimArrives x p).1) set

/-! ### A claim's arrival (R30) -/

/-- How a claim of an indexed serial is tested, on a directory that is ready. -/
theorem claimArrives_found {e : DirEntry} (ready : s.dir.ready = true) (powered : s.pins.pwrlow = false)
    (found : s.lookup x = some e) : s.claimArrives x p =
      if e.condition = .issuing then State.deliver p (s, .wait)
      else if e.condition = .damaged ∨ e.condition = .worn then State.deliver p (s, .refused .fault)
      else if e.claimedBy.isSome then State.deliver p (s, .refused .inUse)
      else if s.claimPending x then (s.holdBehind x [p], none)
      else
        match s.queuedImage e.slot, e.live with
        | some i, _ => State.deliver p (s.completeClaim x p (some i))
        | none, some (c, _) => (s.startClaim x e.slot p c, none)
        | none, none => State.deliver p (s.completeClaim x p none) := by
  unfold State.claimArrives
  rw [if_neg (by rw [ready, powered]; rintro (h | h) <;> nomatch h), found] <;> rfl

theorem claimArrives_good {e : DirEntry} (ready : s.dir.ready = true) (powered : s.pins.pwrlow = false)
    (found : s.lookup x = some e) (good : e.condition = .good) (unclaimed : e.claimedBy = none) : s.claimArrives x p =
      if s.claimPending x then (s.holdBehind x [p], none)
      else
        match s.queuedImage e.slot, e.live with
        | some i, _ => State.deliver p (s.completeClaim x p (some i))
        | none, some (c, _) => (s.startClaim x e.slot p c, none)
        | none, none => State.deliver p (s.completeClaim x p none) := by
  rw [claimArrives_found ready powered found, if_neg (by rw [good]; nofun),
    if_neg (by rw [good]; rintro (h | h) <;> nomatch h), if_neg (by rw [unclaimed]; nofun)]

end

end

/-- What a card handed back leaves, with its position left as `d`. -/
theorem handBack_leaves (x : Slot) (i : Image) (s : State) (p : Pos) (d : Position) :
    let t := (s.handBack x i).withCtx p d
    s.onlySettles t [x] ∧ t.lines = s.lines ∧ s.port.onlyMarked t.port ∧ t.attention = s.attention ∧
      t.positions = (s.withCtx p d).positions ∧ t.queues x i ∧ t.free x := by
  obtain ⟨lines, positions, attention⟩ := handBack_rest x i s
  exact ⟨(handBack_onlySettles x i s).aside _ _ _, lines, handBack_port x i s, attention,
    congrArg (fun v : Vector Position 48 => v.set p.val d p.isLt) positions, offerSettlement_queues x i s,
    release_free x (s.offerSettlement x i)⟩

/-- Settles O47. -/
theorem claimsArriveAndAreAnswered : Obligations.ClaimsArriveAndAreAnswered := by
  intro s p x orders c answers
  refine ⟨⟨fun state => ⟨fun outstanding => sendClaim_outstanding outstanding state,
    fun outstanding => sendClaim_sent outstanding state⟩, fun q state call =>
    ⟨fun outstanding => sendClaim_grace_outstanding outstanding state call,
    fun outstanding => sendClaim_grace_sent outstanding state call⟩⟩,
    ⟨fun away => congrArg Prod.fst (if_pos away), fun ready powered => ⟨fun unknown => ?_, fun e found => ?_⟩⟩,
    fun y outstanding => ⟨fun state => ?_, fun q state call sub => ?_, fun q slot cls i state call sub pays most => ?_,
      fun state => takeAnswer_cut (orders p) state outstanding⟩,
    fun y outstanding => ?_⟩
  · unfold answers State.claimArrives
    rw [if_neg (by rw [ready, powered]; rintro (h | h) <;> nomatch h), unknown]
    rfl
  · have arrives := claimArrives_found (p := p) ready powered found
    have notPending : (∀ d ∈ s.dir.claims, d.serial ≠ x) → ¬s.claimPending x = true := fun alone pending => by
      obtain ⟨d, mem, mine⟩ := List.any_eq_true.1 pending
      exact alone d mem (beq_iff_eq.1 mine)
    have good' := fun good unclaimed => claimArrives_good (p := p) ready powered found good unclaimed
    refine ⟨fun issuing => ?_, fun faulty => ?_, fun good claimed => ?_, fun good unclaimed =>
      ⟨fun pending => ?_, fun alone => ⟨fun i queued => ?_, fun copy g unqueued live => ?_⟩⟩⟩
    · exact congrArg Prod.fst (arrives.trans (if_pos issuing))
    · have issued : e.condition ≠ .issuing := by obtain h | h := faulty <;> rw [h] <;> nofun
      exact congrArg Prod.fst (arrives.trans ((if_neg issued).trans (if_pos faulty)))
    · exact congrArg Prod.fst (arrives.trans ((if_neg (by rw [good]; nofun)).trans
        ((if_neg (by rw [good]; rintro (h | h) <;> nomatch h)).trans (if_pos (Option.isSome_iff_ne_none.2 claimed)))))
    · refine congrArg Prod.fst ((good' good unclaimed).trans (if_pos ?_))
      obtain ⟨d, mem, mine⟩ := pending
      exact List.any_eq_true.2 ⟨d, mem, beq_iff_eq.2 mine⟩
    · rw [good' good unclaimed, if_neg (notPending alone), queued]
      rfl
    · rw [good' good unclaimed, if_neg (notPending alone), unqueued, live]
      rfl
  · obtain ⟨accepted, refused, waits⟩ := takeAnswer_checking (orders p) state outstanding
    exact ⟨accepted, refused, waits⟩
  · obtain ⟨accepted, refused, waits⟩ := takeAnswer_grace (orders p) state outstanding
    refine ⟨fun r => (refused r).trans ?_, waits, fun slot cls i service short => ?_⟩
    · exact congrArg (fun d => s.withCtx p d)
        (setSub_settled (d := Position.takeRefusal y r (s.ctx p).answered) state call .refused)
    · obtain ⟨only, lines, port, attention, positions, queues, free⟩ := handBack_leaves slot
        (Claim.settlement { slot := slot, serial := y, cls := cls, image := i } i.balance false) s p { c.answered with
          claim := none, claimBalance := 0, working := 0, debited := 0, candidate := none
          refusedSerial := some y, refusedVerdict := .refusedLow, refusedBalance := i.balance
          call := some { q with sub := .refused }, order := .plain .refusedLow i.balance }
      exact ⟨_, takeAnswer_grace_short (orders p) state call outstanding service short, only, lines, port, attention, queues,
        free, positions⟩
  · have left := takeAnswer_grace_pays (x := slot) (orders p) state call outstanding pays most
    rw [Position.metered, warnFor_eq] at left
    exact ⟨_, rfl, left⟩
  · obtain ⟨accepted, refused, waits⟩ := takeAnswer_abandoned (orders p) outstanding
    refine ⟨refused, waits, fun slot cls i => ⟨_, accepted slot cls i, ?_⟩⟩
    obtain ⟨only, lines, port, attention, positions, queues, free⟩ := handBack_leaves slot
      (Claim.settlement { slot := slot, serial := y, cls := cls, image := i } i.balance false) s p (s.ctx p).answered
    exact ⟨only, lines, port, attention, positions, free, queues⟩

end Sys2Proof.Machine
end

section
/-!
PROOFS. Reports in GRACE: the card fields, the end of the call, and the pulses (for O29).
-/

namespace Sys2Proof.Machine

/-! ### A claim sent in GRACE (R101, R102) -/

theorem completeClaim_positions (x : Serial) (p : Pos) (i : Option Image) (s : State) :
    (s.completeClaim x p i).1.positions = s.positions := by
  unfold State.completeClaim
  repeat' split
  all_goals rfl

theorem requestRead_positions (r : ReadRequest) (s : State) : (s.requestRead r).positions = s.positions := by
  obtain ⟨_, _, _, _, _, _, same, -, -⟩ := State.requestRead_spec r s
  rw [same]

/-- A claim that arrives is answered, or waits with the positions as they were. -/
theorem claimArrives_answers (x : Serial) (p : Pos) (s : State) :
    (∃ (t : State) (a : ClaimAnswer), t.positions = s.positions ∧ (s.claimArrives x p).1 = t.takeAnswer p a) ∨
    (s.claimArrives x p).1.positions = s.positions := by
  unfold State.claimArrives
  split
  · exact .inl ⟨s, _, rfl, rfl⟩
  split
  · exact .inl ⟨s, _, rfl, rfl⟩
  split
  · exact .inl ⟨s, _, rfl, rfl⟩
  split
  · exact .inl ⟨s, _, rfl, rfl⟩
  split
  · exact .inl ⟨s, _, rfl, rfl⟩
  split
  · exact .inr rfl
  split
  · exact .inl ⟨_, _, completeClaim_positions _ _ _ _, rfl⟩
  · exact .inr (requestRead_positions _ _)
  · exact .inl ⟨_, _, completeClaim_positions _ _ _ _, rfl⟩

/-- A position that has sent its claim in GRACE: METERED again, or in GRACE with the next card being read, checked or
refused. -/
def Position.claiming (d : Position) : Prop :=
  d.state = .metered ∨
  (d.state = .grace ∧ ∃ k, d.call = some k ∧ (k.sub = .reading ∨ k.sub = .checking ∨ k.sub = .refused))

section
variable {s : State} {p : Pos} {q : Call} {y : Serial}

theorem setSub_claiming {d : Position} (state : d.state = .grace) (call : d.call = some q) :
    (d.setSub .refused).settled.claiming := by
  rw [setSub_settled state call]
  exact .inr ⟨state, _, rfl, .inr (.inr rfl)⟩

theorem gracePayment_claiming {d : Position} {held : Claim} (state : d.state = .grace) (call : d.call = some q)
    (claim : d.claim = some held) : (((s.withCtx p d).gracePayment p).ctx p).claiming := by
  rw [gracePayment_eq call claim]
  split
  · rw [meter_eq (a := s.account held.cls [] d.working d.debited) claim rfl rfl, State.ctx_withCtx_same]
    exact .inl rfl
  · rw [State.ctx_withCtx_same]
    exact setSub_claiming (q := q) state call

theorem takeAnswer_claiming (current : (s.ctx p).order = (s.ctx p).currentOrder) (state : (s.ctx p).state = .grace)
    (call : (s.ctx p).call = some q) (sub : q.sub = .checking)
    (outstanding : (s.ctx p).outstanding = some { serial := y, abandoned := false }) (a : ClaimAnswer) :
    ((s.takeAnswer p a).ctx p).claiming := by
  obtain ⟨accepted, refused, waits⟩ := takeAnswer_grace current state outstanding
  cases a with
  | accepted x cls i =>
    rw [accepted]
    exact gracePayment_claiming (q := q) (d := (Position.takeCard x y cls i (s.ctx p).answered).settled) state call rfl
  | refused r =>
    rw [refused, State.ctx_withCtx_same]
    exact setSub_claiming (q := q) (d := Position.takeRefusal y r (s.ctx p).answered) state call
  | wait =>
    rw [waits, State.ctx_withCtx_same]
    exact .inr ⟨state, q, call, .inr (.inl sub)⟩

theorem sendClaim_claiming (state : (s.ctx p).state = .grace) (call : (s.ctx p).call = some q) (x : Serial) :
    ((s.sendClaim p x).ctx p).claiming := by
  by_cases outstanding : (s.ctx p).outstanding = none
  · rw [sendClaim_grace_sent outstanding state call]
    obtain ⟨d, there⟩ : ∃ d : Position, d = { s.ctx p with
      candidate := some x, outstanding := some { serial := x, abandoned := false }
      call := some { q with sub := .checking }, order := .plain .grace q.amount } := ⟨_, rfl⟩
    rw [← there]
    have state' : d.state = .grace := by rw [there]; exact state
    have call' : d.call = some { q with sub := .checking } := by rw [there]
    have order : d.order = d.currentOrder :=
      (show d.order = .plain .grace q.amount by rw [there]).trans (congrArg Position.order (settled_grace state' call')).symm
    obtain ⟨t, a, same, answers⟩ | waits := claimArrives_answers x p (s.withCtx p d)
    · have ctx : t.ctx p = d := (State.ctx_of_positions same p).trans (State.ctx_withCtx_same s p d)
      rw [answers]
      exact takeAnswer_claiming (q := { q with sub := .checking }) (y := x) (by rw [ctx]; exact order) (by rw [ctx]; exact state') (by rw [ctx]; exact call') rfl (by rw [ctx, there]) a
    · rw [(State.ctx_of_positions waits p).trans (State.ctx_withCtx_same s p d)]
      exact .inr ⟨state', _, call', .inr (.inl rfl)⟩
  · rw [sendClaim_grace_outstanding outstanding state call, State.ctx_withCtx_same]
    exact .inr ⟨state, _, rfl, .inl rfl⟩

end

/-! ### The end of a call in GRACE (R106) -/

/-- A position in the state that the end of its call leaves. -/
def Position.rests (d : Position) (state : PosState) (order : Order) : Position :=
  { d with state := state, call := none, order := order }

/-- A position after a report showing zone 0 that found it in GRACE, or METERED again (R106, log 15). -/
def Position.graceEnded (d : Position) : Position :=
  match d.state, d.call.map Call.sub with
  | .metered, _ => d.rests .held (.plain .accepted d.working)
  | .grace, some .old => d.rests .held (.plain .accepted d.working)
  | .grace, some .absent => d.rests .vacant (.plain .none 0)
  | .grace, some .reading => d.rests .reading (.plain .none 0)
  | .grace, some .checking => d.rests (if d.outstanding = none then .waiting else .checking) (.plain .wait 0)
  | .grace, some .refused => d.rests .refused d.showsRefusal
  | .grace, none => d.rests .vacant (.plain .none 0)
  | _, _ => d

section
variable {s u : State} {p : Pos} {d : Position} {r : Report} {x : Option Serial}

theorem graceEnd_ended (state : (u.ctx p).state = .grace) : u.graceEnd p = u.withCtx p (u.ctx p).graceEnded := by
  unfold State.graceEnd
  rw [State.onCtx_eq]
  refine congrArg (fun e => u.withCtx p e) ?_
  generalize u.ctx p = d at *
  unfold Position.graceEnded
  rw [state]
  cases d.call.map Call.sub with
  | none => rfl
  | some sub =>
    cases sub with
    | checking =>
      dsimp only
      by_cases answered : d.outstanding = none
      · rw [if_pos answered, if_neg (by rw [answered]; nofun)]
        rfl
      · rw [if_neg answered, if_pos (Option.isSome_iff_ne_none.2 answered)]
        rfl
    | old | absent | reading | refused => rfl

theorem graceRest_goes (zone : r.zone ≠ 0) : s.graceRest p r x = s.graceCard p r x := if_pos zone

theorem graceRest_ends (zone : r.zone = 0) (card : s.graceCard p r x = u) :
    s.graceRest p r x = u.withCtx p (u.ctx p).graceEnded := by
  unfold State.graceRest
  rw [card]
  refine (if_neg (not_not.2 zone)).trans ?_
  by_cases grace : (u.ctx p).state = .grace
  · rw [if_pos grace]
    exact graceEnd_ended grace
  · rw [if_neg grace]
    by_cases metered : (u.ctx p).state = .metered
    · rw [if_pos metered]
      refine congrArg (fun e => u.withCtx p e) ?_
      generalize u.ctx p = d at *
      unfold Position.graceEnded
      rw [metered]
      rfl
    · rw [if_neg metered]
      have stays : (u.ctx p).graceEnded = u.ctx p := by
        generalize u.ctx p = d at *
        unfold Position.graceEnded
        cases state : d.state with
        | metered => exact absurd state metered
        | grace => exact absurd state grace
        | off | vacant | reading | checking | waiting | held | refused | cut | lost => rfl
      rw [stays, State.withCtx_same]

end

/-! ### The card fields of a report in GRACE (R100 to R102) -/

/-- A position in GRACE whose card sub-state has become `sub`. -/
def Position.moves (q : Call) (d : Position) (sub : SubState) : Position :=
  { d with call := some { q with sub := sub }, order := .plain .grace q.amount }

section
variable {s : State} {p : Pos} {d : Position} {r : Report} {x : Option Serial} {y : Serial} {q : Call} {held : Claim}

theorem setSub_moves (state : d.state = .grace) (call : d.call = some q) {sub : SubState} (away : sub ≠ .refused) :
    (d.setSub sub).settled = d.moves q sub := by
  rw [setSub_settled state call, if_neg away]
  rfl

theorem setSub_withCtx (state : d.state = .grace) (call : d.call = some q) {sub : SubState} (away : sub ≠ .refused) :
    (s.withCtx p d).onCtx p (Position.setSub sub) = s.withCtx p (d.moves q sub) := by
  rw [State.withCtx_onCtx, setSub_moves state call away]

/-- A call in GRACE whose first card has been settled and released. -/
theorem emptied_moves (state : d.state = .grace) (call : d.call = some q) (sub : q.sub = .old) :
    d.dropClaim.settled = d.emptied.moves q .old := by
  rw [settled_grace (d := d.dropClaim) state call, if_neg (by rw [sub]; nofun), ← show q.sub = .old from sub]
  exact congrArg (fun k => ({ d.emptied with call := k, order := .plain .grace q.amount } : Position)) call

theorem graceCard_old_left (state : d.state = .grace) (call : d.call = some q) (sub : q.sub = .old) (claim : d.claim = some held)
    (absent : r.present = false) : (s.withCtx p d).graceCard p r x =
      (s.handBack held.slot (held.settlement d.working false)).withCtx p (d.emptied.moves q .absent) := by
  unfold State.graceCard
  rw [State.ctx_withCtx_same]
  dsimp only
  rw [call, Option.map_some, sub]
  refine (if_pos absent).trans ?_
  rw [endClaim_withCtx claim]
  exact setSub_withCtx (d := d.dropClaim.settled) state call nofun

theorem graceCard_old_swapped (state : d.state = .grace) (call : d.call = some q) (sub : q.sub = .old)
    (claim : d.claim = some held) (present : r.present = true) (other : y ≠ held.serial) :
    (s.withCtx p d).graceCard p r (some y) =
      ((s.handBack held.slot (held.settlement d.working false)).withCtx p (d.emptied.moves q .old)).sendClaim p y := by
  unfold State.graceCard
  rw [State.ctx_withCtx_same]
  dsimp only
  rw [call, Option.map_some, sub]
  refine (if_neg (by rw [present]; nofun)).trans ?_
  refine (if_pos (by rw [claim]; exact fun e => other (Option.some_injective _ e))).trans ?_
  rw [endClaim_withCtx claim, emptied_moves state call sub]

theorem graceCard_old_same (call : d.call = some q) (sub : q.sub = .old) (claim : d.claim = some held)
    (present : r.present = true) (same : x = none ∨ x = some held.serial) :
    (s.withCtx p d).graceCard p r x = s.withCtx p d := by
  unfold State.graceCard
  rw [State.ctx_withCtx_same]
  dsimp only
  rw [call, Option.map_some, sub]
  refine (if_neg (by rw [present]; nofun)).trans ?_
  obtain rfl | rfl := same
  · rfl
  · exact if_neg fun differs => differs (by rw [claim]; rfl)

theorem graceCard_absent (call : d.call = some q) (sub : q.sub = .absent) (absent : r.present = false) :
    (s.withCtx p d).graceCard p r x = s.withCtx p d := by
  unfold State.graceCard
  rw [State.ctx_withCtx_same]
  dsimp only
  rw [call, Option.map_some, sub]
  exact if_neg (by rw [absent]; nofun)

theorem graceCard_absent_present (state : d.state = .grace) (call : d.call = some q) (sub : q.sub = .absent)
    (present : r.present = true) : (s.withCtx p d).graceCard p r x = s.withCtx p (d.moves q .reading) := by
  unfold State.graceCard
  rw [State.ctx_withCtx_same]
  dsimp only
  rw [call, Option.map_some, sub]
  exact (if_pos present).trans (setSub_withCtx state call nofun)

theorem graceCard_reading_left (state : d.state = .grace) (call : d.call = some q) (sub : q.sub = .reading)
    (absent : r.present = false) : (s.withCtx p d).graceCard p r x = s.withCtx p (d.moves q .absent) := by
  unfold State.graceCard
  rw [State.ctx_withCtx_same]
  dsimp only
  rw [call, Option.map_some, sub]
  exact (if_pos absent).trans (setSub_withCtx state call nofun)

theorem graceCard_reading (call : d.call = some q) (sub : q.sub = .reading) (present : r.present = true) :
    (s.withCtx p d).graceCard p r none = s.withCtx p d ∧
    (s.withCtx p d).graceCard p r (some y) = (s.withCtx p d).sendClaim p y := by
  unfold State.graceCard
  rw [State.ctx_withCtx_same]
  dsimp only
  rw [call, Option.map_some, sub]
  exact ⟨if_neg (by rw [present]; nofun), if_neg (by rw [present]; nofun)⟩

/-- A position that has let go of the card it was checking (R101). -/
def Position.unchecked (d : Position) : Position := { d.abandoned with candidate := none }

theorem graceCard_checking_left (state : d.state = .grace) (call : d.call = some q) (sub : q.sub = .checking)
    (absent : r.present = false) : (s.withCtx p d).graceCard p r x = s.withCtx p (d.unchecked.moves q .absent) := by
  unfold State.graceCard
  rw [State.ctx_withCtx_same]
  dsimp only
  rw [call, Option.map_some, sub]
  refine (if_pos absent).trans ((State.withCtx_onCtx _ _ _ _).trans (congrArg (fun e => s.withCtx p e) ?_))
  exact setSub_moves (d := d.unchecked) state call nofun

theorem graceCard_checking_other (state : d.state = .grace) (call : d.call = some q) (sub : q.sub = .checking)
    (present : r.present = true) (other : d.candidate ≠ some y) : (s.withCtx p d).graceCard p r (some y) =
      s.withCtx p (Position.moves q { d.unchecked with highHalf := none } .reading) := by
  unfold State.graceCard
  rw [State.ctx_withCtx_same]
  dsimp only
  rw [call, Option.map_some, sub]
  refine (if_neg (by rw [present]; nofun)).trans ((if_pos (differs_some other)).trans
    ((State.withCtx_onCtx _ _ _ _).trans (congrArg (fun e => s.withCtx p e) ?_)))
  exact setSub_moves (d := { d.unchecked with highHalf := none }) state call nofun

theorem graceCard_checking_same (call : d.call = some q) (sub : q.sub = .checking)
    (present : r.present = true) (same : x = none ∨ x = d.candidate) : (s.withCtx p d).graceCard p r x =
      match d.outstanding, d.candidate with
      | none, some x => (s.withCtx p d).sendClaim p x
      | _, _ => s.withCtx p d := by
  unfold State.graceCard
  rw [State.ctx_withCtx_same]
  dsimp only
  rw [call, Option.map_some, sub]
  exact (if_neg (by rw [present]; nofun)).trans (if_neg (by rw [differs_same same]; nofun))

theorem graceCard_refused_left (state : d.state = .grace) (call : d.call = some q) (sub : q.sub = .refused)
    (absent : r.present = false) : (s.withCtx p d).graceCard p r x = s.withCtx p (d.unrefused.moves q .absent) := by
  unfold State.graceCard
  rw [State.ctx_withCtx_same]
  dsimp only
  rw [call, Option.map_some, sub]
  refine (if_pos absent).trans ((State.withCtx_onCtx _ _ _ _).trans (congrArg (fun e => s.withCtx p e) ?_))
  exact setSub_moves (d := d.unrefused) state call nofun

theorem graceCard_refused_other (state : d.state = .grace) (call : d.call = some q) (sub : q.sub = .refused)
    (present : r.present = true) (other : d.refusedSerial ≠ some y) : (s.withCtx p d).graceCard p r (some y) =
      (s.withCtx p { d.unrefused with order := .plain .none 0 }).sendClaim p y := by
  unfold State.graceCard
  rw [State.ctx_withCtx_same]
  dsimp only
  rw [call, Option.map_some, sub]
  refine (if_neg (by rw [present]; nofun)).trans ((if_neg fun e => other e.symm).trans ?_)
  rw [State.withCtx_onCtx, settled_grace (d := d.clearRefused) state call, if_pos sub]
  rfl

theorem graceCard_refused_same (call : d.call = some q) (sub : q.sub = .refused) (present : r.present = true)
    (same : x = none ∨ x = d.refusedSerial) : (s.withCtx p d).graceCard p r x = s.withCtx p d := by
  unfold State.graceCard
  rw [State.ctx_withCtx_same]
  dsimp only
  rw [call, Option.map_some, sub]
  refine (if_neg (by rw [present]; nofun)).trans ?_
  cases x with
  | none => rfl
  | some y => exact if_pos (same.resolve_left nofun)

end

end Sys2Proof.Machine
end

section
/-!
PROOFS. Reports in GRACE and in CUT (O29).
-/

namespace Sys2Proof.Machine

/-! ### The pulses of a report in GRACE (R104) -/

section
variable {s : State} {p : Pos} {d : Position} {q : Call}

/-- A call cut for want of a usable entry, from any state. -/
theorem cutBarred_settled (zone : BitVec 4) : ((s.withCtx p d).afterTariffRead zone).onCtx p (Position.enterCut .cutBarred) =
    { s.withCtx p (d.enterCut .cutBarred).settled with attention := s.attentionAfterRead zone } := by
  rw [afterTariffRead_eq, attentionAfterRead_congr (s := s) (u := s.withCtx p d) rfl rfl zone, State.onCtx_eq]
  show State.withCtx p (Position.settled (Position.enterCut _ ((s.withCtx p d).ctx p))) _ = _
  rw [State.ctx_withCtx_same]
  exact congrArg (fun v : State => { v with attention := s.attentionAfterRead zone }) (State.withCtx_withCtx s p d _)

/-- A position in GRACE after more pulses, which owes `amount` (R104). -/
def Position.owing (q : Call) (amount : Nat) (k : Call) (d : Position) : Position :=
  { d with
    order := if q.sub = .refused then d.order else .plain .grace amount
    call := some { k with amount := amount } }

/-- A call in GRACE cut by its pulses: the candidate of a claim answered WAIT is dropped (R105). -/
def Position.cutInGrace (q : Call) (v : Verdict) (d : Position) : Position :=
  { d with
    state := .cut, call := none, order := .plain v 0
    candidate := if q.sub = .checking ∧ d.outstanding = none then none else d.candidate }

theorem enterCut_cutInGrace {d : Position} (state : d.state = .grace) (k : Call) (sub : k.sub = q.sub) (v : Verdict) :
    (Position.enterCut v (Position.settled { d with call := some k })).settled = d.cutInGrace q v := by
  rw [enterCut_grace (c := Position.settled { d with call := some k }) state rfl, sub]
  rfl

theorem settled_owing {k j : Call} {amount : Nat} (state : d.state = .grace) (current : d.order = d.currentOrder)
    (call : d.call = some q) (sub : k.sub = q.sub) :
    Position.settled { Position.settled { d with call := some j } with call := some { k with amount := amount } } =
      d.owing q amount k := by
  have shown : d.order = if q.sub = .refused then d.showsRefusal else .plain .grace q.amount :=
    current.trans (congrArg Position.order (settled_grace state call))
  rw [settled_grace (d := { Position.settled { d with call := some j } with call := some { k with amount := amount } })
    (k := { k with amount := amount }) state rfl]
  unfold Position.owing
  rw [show ({ k with amount := amount } : Call).sub = q.sub from sub]
  by_cases refused : q.sub = .refused
  · rw [if_pos refused, if_pos refused, shown, if_pos refused]
    rfl
  · rw [if_neg refused, if_neg refused]
    rfl

/-- The pulses of a report in GRACE, on a call in zone 15. -/
theorem pulses_grace_counted {pulse v : BitVec 4} (state : d.state = .grace) (current : d.order = d.currentOrder)
    (call : d.call = some q) (pulsed : q.zone = 15) (last : q.lastPulse = some v) (other : pulse ≠ v) :
    (s.entryInForce 15 = none → (s.withCtx p d).pulses p pulse =
      { s.withCtx p (d.cutInGrace q .cutBarred) with attention := s.attentionAfterRead 15 }) ∧
    ∀ e, s.entryInForce 15 = some e →
      let n := (pulse - v).toNat
      let rate := q.rateInGrace e d.cls
      let amount := q.amount + (pulseCharges rate (q.phaseAt rate) n).sum
      (s.withCtx p d).pulses p pulse = s.withCtx p (
        if 255 < amount then d.cutInGrace q .cutOther
        else d.owing q amount (Call.paced rate e.interval.toNat n { q with lastPulse := some pulse })) := by
  have counts : q.countPulse pulse = { q with lastPulse := some pulse } := if_pos pulsed
  obtain ⟨j, there⟩ : ∃ j, j = ({ q with lastPulse := some pulse } : Call) := ⟨_, rfl⟩
  have sub : j.sub = q.sub := by rw [there]
  have next := pulses_grace (s := s) (p := p) (pulse := pulse) state call
  rw [newPulses_some pulsed last, if_neg (newPulses_ne other), pulsed, counts, ← there] at next
  refine ⟨fun barred => ?_, fun e entry => ?_⟩
  · rw [barred] at next
    rw [next, cutBarred_settled, enterCut_cutInGrace state j sub]
  · intro n rate amount
    rw [entry] at next
    obtain ⟨m, some⟩ : ∃ m, (pulse - v).toNat = m + 1 := Nat.exists_eq_succ_of_ne_zero (newPulses_ne other)
    have charges : (Call.owe (q.rateInGrace e d.cls) e.interval.toNat (pulse - v).toNat j).1 =
        (pulseCharges rate (q.phaseAt rate) n).sum := by
      rw [Call.owe_amount, there]
      rfl
    have after : (Call.owe (q.rateInGrace e d.cls) e.interval.toNat (pulse - v).toNat j).2 =
        j.paced rate e.interval.toNat n := by
      show _ = j.paced rate e.interval.toNat (pulse - v).toNat
      rw [some]
      exact Call.owe_call _ _ _ _
    dsimp only at next
    rw [charges, after, enterCut_cutInGrace state j sub, settled_owing state current call (by rw [there]; rfl)] at next
    rw [next, ← there]
    exact (apply_ite (fun e => s.withCtx p e) (255 < amount) _ _).symm

end

/-! ### A CUT from a call on a card (R108, R109) -/

/-- A position without a card of its own when its cut ends, with a card there (R109). -/
def Position.cutEnded (d : Position) : Position :=
  if d.outstanding ≠ none then d.rests .checking (.plain .wait 0)
  else if d.refusedSerial ≠ none then d.rests .refused d.showsRefusal
  else d.rests .reading (.plain .none 0)

/-- A position in CUT without a card of its own, after the serial that a report has completed (R108). -/
def Position.cutMet (x : Option Serial) (d : Position) : Position :=
  let e := if differs x d.refusedSerial = true then d.unrefused else d
  if d.outstanding ≠ none ∧ differs x d.candidate = true then { e.abandoned with candidate := none } else e

section
variable {s u : State} {p : Pos} {d : Position} {r : Report} {x : Option Serial} {held : Claim}

theorem rests_same (call : d.call = none) (state : PosState) (order : Order) :
    d.rests state order = { d with state := state, order := order } := by
  unfold Position.rests
  rw [← call]

theorem withCtx_state (call : d.call = none) (state : PosState) (order : Order)
    (settled : Position.currentOrder { d with state := state } = order) :
    (u.withCtx p d).onCtx p (fun c => { c with state := state }) = u.withCtx p (d.rests state order) := by
  rw [State.withCtx_onCtx, rests_same call, ← settled]
  rfl

theorem cutEnd_left (call : d.call = none) (absent : r.present = false) :
    (u.withCtx p d).cutEnd p r = u.withCtx p (d.rests .vacant (.plain .none 0)) :=
  (if_pos absent).trans (withCtx_state call _ _ rfl)

theorem cutEnd_held (call : d.call = none) (present : r.present = true) (claim : d.claim = some held) :
    (u.withCtx p d).cutEnd p r = u.withCtx p (d.rests .held (.plain .accepted d.working)) := by
  unfold State.cutEnd
  rw [State.ctx_withCtx_same]
  refine (if_neg (by rw [present]; nofun)).trans ((if_pos (by rw [claim]; rfl)).trans (withCtx_state call _ _ rfl))

theorem cutEnd_none (call : d.call = none) (present : r.present = true) (claim : d.claim = none) :
    (u.withCtx p d).cutEnd p r = u.withCtx p d.cutEnded := by
  have here : r.present ≠ false := by rw [present]; nofun
  unfold State.cutEnd Position.cutEnded
  rw [State.ctx_withCtx_same]
  refine (if_neg here).trans ((if_neg (by rw [claim]; nofun)).trans ?_)
  by_cases outstanding : d.outstanding = none
  · rw [if_neg (not_not.2 outstanding)]
    refine (if_neg (by rw [outstanding]; nofun)).trans ?_
    by_cases refused : d.refusedSerial = none
    · rw [if_neg (not_not.2 refused)]
      refine (if_neg (by rw [refused]; nofun)).trans ?_
      rw [withCtx_state call .vacant (.plain .none 0) rfl]
      exact vacantReport_present present
    · rw [if_pos refused]
      exact (if_pos (Option.isSome_iff_ne_none.2 refused)).trans (withCtx_state call _ _ rfl)
  · rw [if_pos outstanding]
    exact (if_pos (Option.isSome_iff_ne_none.2 outstanding)).trans (withCtx_state call _ _ rfl)

theorem cutReport_goes (verdict : d.order.verdict ≠ .cutUnpaid) (zone : r.zone ≠ 0) :
    (s.withCtx p d).cutReport p r x = (s.withCtx p d).cutCard p r x := by
  unfold State.cutReport
  rw [State.ctx_withCtx_same, if_neg verdict]
  exact if_neg zone

theorem cutReport_ends (verdict : d.order.verdict ≠ .cutUnpaid) (zone : r.zone = 0) :
    (s.withCtx p d).cutReport p r x = ((s.withCtx p d).cutCard p r x).cutEnd p r := by
  unfold State.cutReport
  rw [State.ctx_withCtx_same, if_neg verdict]
  exact if_pos zone

/-- The card that a position in CUT holds leaves it, or another is met. -/
theorem cutCard_released (state : d.state = .cut) (plain : d.order = .plain d.order.verdict 0) (claim : d.claim = some held)
    (gone : r.present = false ∨ differs x (some held.serial) = true) : (s.withCtx p d).cutCard p r x =
      (s.handBack held.slot (held.settlement d.working false)).withCtx p d.emptied := by
  have ends : (s.withCtx p d).endClaim p false =
      (s.handBack held.slot (held.settlement d.working false)).withCtx p d.emptied :=
    (endClaim_withCtx claim).trans (congrArg (fun e => State.withCtx p e _) (settled_cut (d := d.dropClaim) state plain))
  unfold State.cutCard
  rw [State.ctx_withCtx_same]
  dsimp only
  have holds : d.claim.isSome = true := by rw [claim]; rfl
  by_cases absent : r.present = false
  · rw [if_pos absent, if_pos holds, ends]
  · rw [if_neg absent, if_pos holds, if_pos (by rw [claim]; exact gone.resolve_left absent), ends]

theorem cutCard_same (claim : d.claim = some held) (present : r.present = true) (same : x = none ∨ x = some held.serial) :
    (s.withCtx p d).cutCard p r x = s.withCtx p d := by
  unfold State.cutCard
  rw [State.ctx_withCtx_same]
  dsimp only
  rw [if_neg (by rw [present]; nofun), if_pos (by rw [claim]; rfl), claim,
    if_neg (by rw [show (some held).map Claim.serial = some held.serial from rfl, differs_same same]; nofun)]

theorem cutCard_left (state : d.state = .cut) (plain : d.order = .plain d.order.verdict 0) (claim : d.claim = none)
    (absent : r.present = false) :
    (s.withCtx p d).cutCard p r x = s.withCtx p { d.unrefused.abandoned with candidate := none } := by
  unfold State.cutCard
  rw [State.ctx_withCtx_same]
  dsimp only
  rw [if_pos absent, if_neg (by rw [claim]; nofun), State.withCtx_onCtx]
  exact congrArg (fun e => s.withCtx p e) (settled_cut (d := { d.unrefused.abandoned with candidate := none }) state plain)

theorem cutMet_kept (x : Option Serial) (d : Position) : (d.cutMet x).state = d.state ∧ (d.cutMet x).order = d.order ∧
    (d.cutMet x).claim = d.claim ∧ (d.cutMet x).call = d.call := by
  unfold Position.cutMet
  dsimp only
  split <;> split <;> exact ⟨rfl, rfl, rfl, rfl⟩

theorem cutCard_met (state : d.state = .cut) (plain : d.order = .plain d.order.verdict 0) (claim : d.claim = none)
    (present : r.present = true) : (s.withCtx p d).cutCard p r x = s.withCtx p (d.cutMet x) := by
  obtain ⟨sameState, sameOrder, -, -⟩ := cutMet_kept x d
  have settled : (d.cutMet x).settled = d.cutMet x := settled_cut (sameState.trans state) (by rw [sameOrder]; exact plain)
  unfold State.cutCard
  rw [State.ctx_withCtx_same]
  dsimp only
  rw [if_neg (by rw [present]; nofun), if_neg (by rw [claim]; nofun), State.withCtx_onCtx]
  refine (congrArg (fun e => s.withCtx p (Position.settled e)) (?_ : _ = d.cutMet x)).trans
    (congrArg (fun e => s.withCtx p e) settled)
  exact if_congr (and_congr Option.isSome_iff_ne_none Iff.rfl) rfl rfl

/-! ### A CUT from an unpaid call (R74) -/

/-- A position in a CUT from an unpaid call once its report shows zone 0. -/
theorem unpaidCutReport_eq (state : d.state = .cut) (plain : d.order = .plain d.order.verdict 0) (call : d.call = none) :
    (s.withCtx p d).unpaidCutReport p r x =
      let e := if r.present = false ∨ differs x d.refusedSerial = true then d.unrefused else d
      s.withCtx p (if r.zone ≠ 0 then e
        else if r.present = false then e.rests .vacant (.plain .none 0)
        else if e.refusedSerial ≠ none then e.rests .refused e.showsRefusal
        else e.rests .reading (.plain .none 0)) := by
  obtain ⟨e, there⟩ : ∃ e, e = if r.present = false ∨ differs x d.refusedSerial = true then d.unrefused else d := ⟨_, rfl⟩
  have cleared : (if r.present = false ∨ differs x d.refusedSerial = true then
      (s.withCtx p d).onCtx p Position.clearRefused else s.withCtx p d) = s.withCtx p e := by
    rw [there, State.withCtx_onCtx, settled_cut (d := d.clearRefused) state plain]
    exact (apply_ite (fun e => s.withCtx p e) (r.present = false ∨ differs x d.refusedSerial = true) _ _).symm
  have none : e.call = none := by
    rw [there]
    split <;> exact call
  unfold State.unpaidCutReport
  rw [State.ctx_withCtx_same]
  dsimp only
  rw [cleared, ← there]
  by_cases goes : r.zone ≠ 0
  · rw [if_pos goes, if_pos goes]
  · rw [if_neg goes, if_neg goes, State.ctx_withCtx_same]
    by_cases absent : r.present = false
    · rw [if_pos absent, if_pos absent, withCtx_state none .vacant (.plain .none 0) rfl]
    · rw [if_neg absent, if_neg absent]
      by_cases refused : e.refusedSerial = .none
      · rw [if_neg (by rw [refused]; nofun), if_neg (not_not.2 refused), withCtx_state none .vacant (.plain .none 0) rfl]
        exact vacantReport_present (by rwa [Bool.not_eq_false] at absent)
      · rw [if_pos (Option.isSome_iff_ne_none.2 refused), if_pos refused, withCtx_state none .refused e.showsRefusal rfl]

end

end Sys2Proof.Machine
end

section
/-!
PROOFS. Reports in GRACE and in CUT, as they close the window (O29).
-/

namespace Sys2Proof.Machine

/-- The position that the end of a call in GRACE leaves, by its card sub-state (R106). -/
def Position.implied (d : Position) : SubState → Position
  | .old => d.rests .held (.plain .accepted d.working)
  | .absent => d.rests .vacant (.plain .none 0)
  | .reading => d.rests .reading (.plain .none 0)
  | .checking => d.rests (if d.outstanding = none then .waiting else .checking) (.plain .wait 0)
  | .refused => d.rests .refused d.showsRefusal

theorem graceEnded_implied {d : Position} {k : Call} (state : d.state = .grace) (call : d.call = some k) :
    d.graceEnded = d.implied k.sub := by
  unfold Position.graceEnded
  rw [state, call, Option.map_some]
  cases k.sub <;> rfl

/-- A report heard in GRACE that counts no pulses. -/
structure State.hearsGrace (s : State) (l : LineIx) (k : Fin 8) (bits : BitVec 38) (q : Call) : Prop
    extends s.hears l k bits where
  grace : (s.ctx (posOf l k)).state = .grace
  call : (s.ctx (posOf l k)).call = some q
  quiet : q.zone ≠ 15 ∨ q.lastPulse = some (bits.extractLsb' 5 4)

/-- The position of slot `k` with what a report sets of it. -/
def State.heardAt (s : State) (l : LineIx) (k : Fin 8) (bits : BitVec 38) : Position := (s.ctx (posOf l k)).heard bits

/-- The card fields of a report in GRACE leave the state `u`. -/
def State.cardLeaves (s : State) (l : LineIx) (k : Fin 8) (bits : BitVec 38) (u : State) : Prop :=
  (s.withCtx (posOf l k) (s.heardAt l k bits)).graceCard (posOf l k) (reportFields bits)
    ((s.ctx (posOf l k)).completes bits) = u

section
variable {s u : State} {p : Pos} {l : LineIx} {k : Fin 8} {bits : BitVec 38} {q : Call} {d : Position}

theorem sendClaim_withCtx_claiming (state : d.state = .grace) (call : d.call = some q) (x : Serial) :
    (((s.withCtx p d).sendClaim p x).ctx p).claiming :=
  sendClaim_claiming (q := q) (by rw [State.ctx_withCtx_same]; exact state) (by rw [State.ctx_withCtx_same]; exact call) x

namespace State.hearsGrace

theorem counted (h : s.hearsGrace l k bits q) : (s.ctx (posOf l k)).counted (bits.extractLsb' 5 4) where
  current := h.orders _
  call j mem := by cases h.call.symm.trans mem; exact h.quiet
  metered := by rw [h.grace]; nofun
  grace _ := Option.isSome_iff_exists.2 ⟨_, h.call⟩
  off := by rw [h.grace]; nofun
  lost := by rw [h.grace]; nofun

theorem byRest (h : s.hearsGrace l k bits q) (rest : (s.withCtx (posOf l k) (s.heardAt l k bits)).graceRest (posOf l k)
    (reportFields bits) ((s.ctx (posOf l k)).completes bits) = u) : s.closes l k u := by
  refine h.tohears.quietly h.counted (Eq.trans ?_ rest)
  show (s.withCtx (posOf l k) (s.heardAt l k bits)).reportByState _ _ _ = _
  unfold State.reportByState
  rw [State.ctx_withCtx_same, show (s.heardAt l k bits).state = .grace from h.grace]

/-- The report without zone 0. -/
theorem goes (h : s.hearsGrace l k bits q) (zone : bits.extractLsb' 9 4 ≠ 0) (card : s.cardLeaves l k bits u) :
    s.closes l k u := h.byRest ((graceRest_goes zone).trans card)

/-- The report showing zone 0, which ends the call. -/
theorem ends (h : s.hearsGrace l k bits q) (zone : bits.extractLsb' 9 4 = 0) (card : s.cardLeaves l k bits u) :
    s.closes l k (u.withCtx (posOf l k) (u.ctx (posOf l k)).graceEnded) := h.byRest (graceRest_ends zone card)

/-- The same where the card fields have left the position `d`. -/
theorem ends_withCtx (h : s.hearsGrace l k bits q) (zone : bits.extractLsb' 9 4 = 0) {j : Call} {e : Position} {st : SubState}
    (card : s.cardLeaves l k bits (u.withCtx (posOf l k) d)) (grace : d.state = .grace) (call : d.call = some j)
    (sub : j.sub = st) (implied : d.implied st = e) : s.closes l k (u.withCtx (posOf l k) e) := by
  have closes := h.ends zone card
  rw [State.ctx_withCtx_same, State.withCtx_withCtx, graceEnded_implied grace call, sub, implied] at closes
  exact closes

section
variable {held : Claim} {x : Serial}

theorem old_left (h : s.hearsGrace l k bits q) (sub : q.sub = .old) (claim : (s.ctx (posOf l k)).claim = some held)
    (absent : bits.getLsbD 30 = false) : s.cardLeaves l k bits
      ((s.handBack held.slot (held.settlement (s.ctx (posOf l k)).working false)).withCtx (posOf l k)
        ((s.heardAt l k bits).emptied.moves q .absent)) :=
  graceCard_old_left (d := s.heardAt l k bits) h.grace h.call sub claim absent

theorem old_swapped (h : s.hearsGrace l k bits q) (sub : q.sub = .old) (claim : (s.ctx (posOf l k)).claim = some held)
    (met : (s.ctx (posOf l k)).completes bits = some x) (other : x ≠ held.serial) : s.cardLeaves l k bits
      (((s.handBack held.slot (held.settlement (s.ctx (posOf l k)).working false)).withCtx (posOf l k)
        ((s.heardAt l k bits).emptied.moves q .old)).sendClaim (posOf l k) x) := by
  unfold State.cardLeaves
  rw [met]
  exact graceCard_old_swapped (d := s.heardAt l k bits) h.grace h.call sub claim (Position.completes_present met) other

theorem old_same (h : s.hearsGrace l k bits q) (sub : q.sub = .old) (claim : (s.ctx (posOf l k)).claim = some held)
    (present : bits.getLsbD 30 = true)
    (same : (s.ctx (posOf l k)).completes bits = none ∨ (s.ctx (posOf l k)).completes bits = some held.serial) :
    s.cardLeaves l k bits (s.withCtx (posOf l k) (s.heardAt l k bits)) :=
  graceCard_old_same (d := s.heardAt l k bits) h.call sub claim present same

end

end State.hearsGrace

end

/-- A report in GRACE with the first card still held. -/
theorem reportsInGrace_old {s : State} {l : LineIx} {k : Fin 8} {bits : BitVec 38} {q : Call}
    (h : s.hearsGrace l k bits q) {held : Claim} (sub : q.sub = .old) (claim : (s.ctx (posOf l k)).claim = some held) :
    let p := posOf l k
    let c := s.ctx p
    let e := s.heardAt l k bits
    let zone := bits.extractLsb' 9 4
    let present := bits.getLsbD 30
    let met := c.completes bits
    let ends (u : State) : Prop := s.closes l k (u.withCtx p (u.ctx p).graceEnded) ∧ (u.ctx p).claiming
    (present = false → zone ≠ 0 → ∃ u, s.settles u p held (e.emptied.moves q .absent) ∧ s.closes l k u) ∧
    (present = false → zone = 0 → ∃ u,
      s.settles u p held (e.emptied.rests .vacant (.plain .none 0)) ∧ s.closes l k u) ∧
    (∀ x, met = some x → x ≠ held.serial → zone ≠ 0 → ∃ u,
      s.settles u p held (e.emptied.moves q .old) ∧ s.closes l k (u.sendClaim p x)) ∧
    (∀ x, met = some x → x ≠ held.serial → zone = 0 → ∃ u,
      s.settles u p held (e.emptied.moves q .old) ∧ ends (u.sendClaim p x)) ∧
    (present = true → met = none ∨ met = some held.serial →
      (zone ≠ 0 → s.closes l k (s.withCtx p e)) ∧
      (zone = 0 → s.closes l k (s.withCtx p (e.rests .held (.plain .accepted c.working))))) := by
  intro p c e zone present met ends
  refine ⟨fun absent goes => ⟨_, handBack_settles held _, h.goes goes (h.old_left sub claim absent)⟩, fun absent rest => ?_,
    fun x is other goes => ⟨_, handBack_settles held _, h.goes goes (h.old_swapped sub claim is other)⟩,
    fun x is other rest => ?_, fun shown is => ⟨fun goes => h.goes goes (h.old_same sub claim shown is), fun rest => ?_⟩⟩
  · exact ⟨_, handBack_settles held _, h.ends_withCtx rest (h.old_left sub claim absent) h.grace rfl rfl rfl⟩
  · exact ⟨_, handBack_settles held _, h.ends rest (h.old_swapped sub claim is other),
      sendClaim_withCtx_claiming (d := e.emptied.moves q .old) (q := { q with sub := .old }) h.grace rfl x⟩
  · exact h.ends_withCtx rest (h.old_same sub claim shown is) h.grace h.call sub rfl

/-- A report in GRACE with no card there, or with one being read. -/
theorem reportsInGrace_reading {s : State} {l : LineIx} {k : Fin 8} {bits : BitVec 38} {q : Call}
    (h : s.hearsGrace l k bits q) :
    let p := posOf l k
    let c := s.ctx p
    let e := s.heardAt l k bits
    let zone := bits.extractLsb' 9 4
    let present := bits.getLsbD 30
    let met := c.completes bits
    let leaves (d : Position) : Prop := s.closes l k (s.withCtx p d)
    let sent (x : Serial) (d : Position) : State := (s.withCtx p d).sendClaim p x
    let ends (u : State) : Prop := s.closes l k (u.withCtx p (u.ctx p).graceEnded) ∧ (u.ctx p).claiming
    (q.sub = .absent →
      (present = false → (zone ≠ 0 → leaves e) ∧ (zone = 0 → leaves (e.rests .vacant (.plain .none 0)))) ∧
      (present = true → (zone ≠ 0 → leaves (e.moves q .reading)) ∧
        (zone = 0 → leaves (e.rests .reading (.plain .none 0))))) ∧
    (q.sub = .reading →
      (present = false → (zone ≠ 0 → leaves (e.moves q .absent)) ∧
        (zone = 0 → leaves (e.rests .vacant (.plain .none 0)))) ∧
      (present = true → met = none → (zone ≠ 0 → leaves e) ∧
        (zone = 0 → leaves (e.rests .reading (.plain .none 0)))) ∧
      ∀ x, met = some x → (zone ≠ 0 → s.closes l k (sent x e)) ∧ (zone = 0 → ends (sent x e))) := by
  intro p c e zone present met leaves sent ends
  have grace : e.state = .grace := h.grace
  have call : e.call = some q := h.call
  refine ⟨fun sub => ⟨fun absent => ?_, fun shown => ?_⟩, fun sub => ⟨fun absent => ?_, fun shown none => ?_, fun x is => ?_⟩⟩
  · have card : s.cardLeaves l k bits (s.withCtx p e) := graceCard_absent call sub absent
    exact ⟨fun goes => h.goes goes card, fun rest => h.ends_withCtx rest card grace call sub rfl⟩
  · have card : s.cardLeaves l k bits (s.withCtx p (e.moves q .reading)) := graceCard_absent_present grace call sub shown
    exact ⟨fun goes => h.goes goes card, fun rest => h.ends_withCtx rest card grace rfl rfl rfl⟩
  · have card : s.cardLeaves l k bits (s.withCtx p (e.moves q .absent)) := graceCard_reading_left grace call sub absent
    exact ⟨fun goes => h.goes goes card, fun rest => h.ends_withCtx rest card grace rfl rfl rfl⟩
  · have card : s.cardLeaves l k bits (s.withCtx p e) := by
      unfold State.cardLeaves
      rw [show (s.ctx (posOf l k)).completes bits = .none from none]
      exact (graceCard_reading (y := 0) call sub shown).1
    exact ⟨fun goes => h.goes goes card, fun rest => h.ends_withCtx rest card grace call sub rfl⟩
  · have card : s.cardLeaves l k bits ((s.withCtx p e).sendClaim p x) := by
      unfold State.cardLeaves
      rw [show (s.ctx (posOf l k)).completes bits = some x from is]
      exact (graceCard_reading call sub (Position.completes_present is)).2
    exact ⟨fun goes => h.goes goes card, fun rest => ⟨h.ends rest card, sendClaim_withCtx_claiming grace call x⟩⟩

/-- A report in GRACE with a card being checked. -/
theorem reportsInGrace_checking {s : State} {l : LineIx} {k : Fin 8} {bits : BitVec 38} {q : Call}
    (h : s.hearsGrace l k bits q) (sub : q.sub = .checking) :
    let p := posOf l k
    let c := s.ctx p
    let e := s.heardAt l k bits
    let zone := bits.extractLsb' 9 4
    let present := bits.getLsbD 30
    let met := c.completes bits
    let leaves (d : Position) : Prop := s.closes l k (s.withCtx p d)
    let sent (x : Serial) (d : Position) : State := (s.withCtx p d).sendClaim p x
    let ends (u : State) : Prop := s.closes l k (u.withCtx p (u.ctx p).graceEnded) ∧ (u.ctx p).claiming
    (present = false → (zone ≠ 0 → leaves (e.unchecked.moves q .absent)) ∧
      (zone = 0 → leaves (e.unchecked.rests .vacant (.plain .none 0)))) ∧
    (∀ x, met = some x → c.candidate ≠ some x →
      (zone ≠ 0 → leaves (Position.moves q { e.unchecked with highHalf := none } .reading)) ∧
      (zone = 0 → leaves (Position.rests { e.unchecked with highHalf := none } .reading (.plain .none 0)))) ∧
    (present = true → met = none ∨ met = c.candidate → c.outstanding ≠ none →
      (zone ≠ 0 → leaves e) ∧ (zone = 0 → leaves (e.rests .checking (.plain .wait 0)))) ∧
    ∀ x, present = true → met = none ∨ met = some x → c.outstanding = none → c.candidate = some x →
      (zone ≠ 0 → s.closes l k (sent x e)) ∧ (zone = 0 → ends (sent x e)) := by
  intro p c e zone present met leaves sent ends
  have grace : e.state = .grace := h.grace
  have call : e.call = some q := h.call
  refine ⟨fun absent => ?_, fun x is other => ?_, fun shown is outstanding => ?_, fun x shown is answered candidate => ?_⟩
  · have card : s.cardLeaves l k bits (s.withCtx p (e.unchecked.moves q .absent)) :=
      graceCard_checking_left grace call sub absent
    exact ⟨fun goes => h.goes goes card, fun rest => h.ends_withCtx rest card grace rfl rfl rfl⟩
  · have card : s.cardLeaves l k bits (s.withCtx p (Position.moves q { e.unchecked with highHalf := none } .reading)) := by
      unfold State.cardLeaves
      rw [show (s.ctx (posOf l k)).completes bits = some x from is]
      exact graceCard_checking_other grace call sub (Position.completes_present is) other
    exact ⟨fun goes => h.goes goes card, fun rest => h.ends_withCtx rest card grace rfl rfl rfl⟩
  · have card : s.cardLeaves l k bits (s.withCtx p e) := by
      refine (graceCard_checking_same call sub shown is).trans ?_
      obtain ⟨o, some⟩ := Option.ne_none_iff_exists'.1 outstanding
      rw [show e.outstanding = _ from some]
    exact ⟨fun goes => h.goes goes card,
      fun rest => h.ends_withCtx rest card grace call sub (congrArg (fun st => e.rests st _) (if_neg outstanding))⟩
  · have card : s.cardLeaves l k bits ((s.withCtx p e).sendClaim p x) := by
      refine (graceCard_checking_same call sub shown (candidate.symm ▸ is)).trans ?_
      rw [show e.outstanding = none from answered, show e.candidate = some x from candidate]
    exact ⟨fun goes => h.goes goes card, fun rest => ⟨h.ends rest card, sendClaim_withCtx_claiming grace call x⟩⟩

/-- A report in GRACE with a card that was refused. -/
theorem reportsInGrace_refused {s : State} {l : LineIx} {k : Fin 8} {bits : BitVec 38} {q : Call}
    (h : s.hearsGrace l k bits q) (sub : q.sub = .refused) :
    let p := posOf l k
    let c := s.ctx p
    let e := s.heardAt l k bits
    let zone := bits.extractLsb' 9 4
    let present := bits.getLsbD 30
    let met := c.completes bits
    let leaves (d : Position) : Prop := s.closes l k (s.withCtx p d)
    let sent (x : Serial) (d : Position) : State := (s.withCtx p d).sendClaim p x
    let ends (u : State) : Prop := s.closes l k (u.withCtx p (u.ctx p).graceEnded) ∧ (u.ctx p).claiming
    (present = false → (zone ≠ 0 → leaves (e.unrefused.moves q .absent)) ∧
      (zone = 0 → leaves (e.unrefused.rests .vacant (.plain .none 0)))) ∧
    (∀ x, met = some x → c.refusedSerial ≠ some x →
      (zone ≠ 0 → s.closes l k (sent x { e.unrefused with order := .plain .none 0 })) ∧
      (zone = 0 → ends (sent x { e.unrefused with order := .plain .none 0 }))) ∧
    (present = true → met = none ∨ met = c.refusedSerial →
      (zone ≠ 0 → leaves e) ∧ (zone = 0 → leaves (e.rests .refused c.showsRefusal))) := by
  intro p c e zone present met leaves sent ends
  have grace : e.state = .grace := h.grace
  have call : e.call = some q := h.call
  refine ⟨fun absent => ?_, fun x is other => ?_, fun shown is => ?_⟩
  · have card : s.cardLeaves l k bits (s.withCtx p (e.unrefused.moves q .absent)) :=
      graceCard_refused_left grace call sub absent
    exact ⟨fun goes => h.goes goes card, fun rest => h.ends_withCtx rest card grace rfl rfl rfl⟩
  · have card : s.cardLeaves l k bits ((s.withCtx p { e.unrefused with order := .plain .none 0 }).sendClaim p x) := by
      unfold State.cardLeaves
      rw [show (s.ctx (posOf l k)).completes bits = some x from is]
      exact graceCard_refused_other grace call sub (Position.completes_present is) other
    exact ⟨fun goes => h.goes goes card, fun rest => ⟨h.ends rest card,
      sendClaim_withCtx_claiming (d := { e.unrefused with order := .plain .none 0 }) grace call x⟩⟩
  · have card : s.cardLeaves l k bits (s.withCtx p e) := graceCard_refused_same call sub shown is
    exact ⟨fun goes => h.goes goes card, fun rest => h.ends_withCtx rest card grace call sub rfl⟩

end Sys2Proof.Machine
end

section
/-!
PROOFS. Reports in GRACE and in CUT, put together (O29).
-/

namespace Sys2Proof.Machine

section
variable {s : State} {l : LineIx} {k : Fin 8} {bits : BitVec 38} {q : Call} {c : Position}

theorem owing_current {j : Call} (grace : c.state = .grace) (current : c.order = c.currentOrder) (call : c.call = some q)
    (sub : j.sub = q.sub) (amount : Nat) : (c.owing q amount j).order = (c.owing q amount j).currentOrder := by
  rw [← settled_owing (j := j) grace current call sub]
  exact (Position.settled_currentOrder _).symm

theorem cutInGrace_counted (v : Verdict) (pulse : BitVec 4) : (c.cutInGrace q v).counted pulse :=
  ⟨rfl, nofun, nofun, nofun, nofun, nofun⟩

/-- What the new pulses of a report in GRACE leave to the rest of it (R104, log 35). -/
theorem reportsInGrace_pulses (h : s.hears l k bits) (grace : (s.ctx (posOf l k)).state = .grace)
    (call : (s.ctx (posOf l k)).call = some q) {v : BitVec 4} (pulsed : q.zone = 15) (last : q.lastPulse = some v)
    (other : bits.extractLsb' 5 4 ≠ v) :
    let p := posOf l k
    let c := s.ctx p
    let pulse := bits.extractLsb' 5 4
    (s.entryInForce 15 = none → s.goesOn { s.withCtx p (c.cutInGrace q .cutBarred) with
      attention := s.attentionAfterRead 15 } l k bits (c.cutInGrace q .cutBarred)) ∧
    ∀ e, s.entryInForce 15 = some e →
      let n := (pulse - v).toNat
      let rate := q.rateInGrace e c.cls
      let amount := q.amount + (pulseCharges rate (q.phaseAt rate) n).sum
      let owing := c.owing q amount (Call.paced rate e.interval.toNat n { q with lastPulse := some pulse })
      (255 < amount → s.goesOn (s.withCtx p (c.cutInGrace q .cutOther)) l k bits (c.cutInGrace q .cutOther)) ∧
      (amount ≤ 255 → s.goesOn (s.withCtx p owing) l k bits owing) := by
  intro p c pulse
  obtain ⟨barred, usable⟩ := pulses_grace_counted (s := s) (p := p) (d := c.met bits) grace (h.orders p) call pulsed last other
  refine ⟨fun none => h.goesOn_withCtx (.inr grace) (cutInGrace_counted _ _) (barred none), fun e entry => ?_⟩
  have next := usable e entry
  intro n rate amount owing
  refine ⟨fun large => ?_, fun small => ?_⟩
  · exact h.goesOn_withCtx (.inr grace) (a := s.attention) (cutInGrace_counted _ _) (next.trans (congrArg (fun d => s.withCtx p d) (if_pos large)))
  · refine h.goesOn_withCtx (.inr grace) (a := s.attention) ?_ (next.trans (congrArg (fun d => s.withCtx p d) (if_neg (Nat.not_lt_of_le small))))
    exact {
      current := owing_current grace (h.orders p) call rfl amount
      call := fun j mem => by cases mem; exact .inr rfl
      metered := fun metered => absurd (grace.symm.trans metered) nofun
      grace := fun _ => rfl
      off := fun off => absurd (grace.symm.trans off) nofun
      lost := fun lost => absurd (grace.symm.trans lost) nofun }

/-! ### CUT -/

/-- How a report in CUT is taken. -/
theorem State.hears.cut (h : s.hears l k bits) (state : (s.ctx (posOf l k)).state = .cut) {t : State}
    (taken : (s.withCtx (posOf l k) (s.heardAt l k bits)).cutReport (posOf l k) (reportFields bits)
      ((s.ctx (posOf l k)).completes bits) = t) : s.closes l k t := by
  refine h.byState state (by decide) t (Eq.trans ?_ taken)
  show (s.withCtx (posOf l k) (s.heardAt l k bits)).reportByState _ _ _ = _
  unfold State.reportByState
  rw [State.ctx_withCtx_same, show (s.heardAt l k bits).state = .cut from state]

end

/-- A report in a CUT from a call on a card. -/
theorem reportsInCut {s : State} {l : LineIx} {k : Fin 8} {bits : BitVec 38} (h : s.hears l k bits)
    (state : (s.ctx (posOf l k)).state = .cut) (call : (s.ctx (posOf l k)).call = none)
    (paid : (s.ctx (posOf l k)).order.verdict ≠ .cutUnpaid) :
    let p := posOf l k
    let c := s.ctx p
    let e := s.heardAt l k bits
    let zone := bits.extractLsb' 9 4
    let present := bits.getLsbD 30
    let met := c.completes bits
    let leaves (d : Position) : Prop := s.closes l k (s.withCtx p d)
    let gone : Position := { e.unrefused.abandoned with candidate := none }
    (∀ held, c.claim = some held →
      (present = false → zone ≠ 0 → ∃ u, s.settles u p held e.emptied ∧ s.closes l k u) ∧
      (present = false → zone = 0 → ∃ u, s.settles u p held (e.emptied.rests .vacant (.plain .none 0)) ∧ s.closes l k u) ∧
      (∀ x, met = some x → x ≠ held.serial →
        (zone ≠ 0 → ∃ u, s.settles u p held e.emptied ∧ s.closes l k u) ∧
        (zone = 0 → ∃ u, s.settles u p held e.emptied.cutEnded ∧ s.closes l k u)) ∧
      (present = true → met = none ∨ met = some held.serial → (zone ≠ 0 → leaves e) ∧
        (zone = 0 → leaves (e.rests .held (.plain .accepted c.working))))) ∧
    (c.claim = none →
      (present = false → (zone ≠ 0 → leaves gone) ∧ (zone = 0 → leaves (gone.rests .vacant (.plain .none 0)))) ∧
      (present = true → (zone ≠ 0 → leaves (e.cutMet met)) ∧ (zone = 0 → leaves (e.cutMet met).cutEnded))) := by
  intro p c e zone present met leaves gone
  have plain : e.order = .plain e.order.verdict 0 := (h.orders p).trans (currentOrder_cut state)
  have cut : e.state = .cut := state
  have uncalled : e.call = none := call
  have goes' : ∀ {u}, zone ≠ 0 → (s.withCtx p e).cutCard p (reportFields bits) met = u → s.closes l k u := fun goes card =>
    h.cut state ((cutReport_goes (d := e) paid goes).trans card)
  have ends' : ∀ {u t}, zone = 0 → (s.withCtx p e).cutCard p (reportFields bits) met = u →
      u.cutEnd p (reportFields bits) = t → s.closes l k t := fun rest card ends =>
    h.cut state ((cutReport_ends (d := e) paid rest).trans ((congrArg (State.cutEnd p (reportFields bits)) card).trans ends))
  refine ⟨fun held claim => ?_, fun claim => ⟨fun absent => ?_, fun shown => ?_⟩⟩
  · have released := fun gone => cutCard_released (s := s) (p := p) (r := reportFields bits) (x := met) cut plain claim gone
    refine ⟨fun absent goes => ⟨_, handBack_settles held _, goes' goes (released (.inl absent))⟩,
      fun absent rest => ⟨_, handBack_settles held _, ends' rest (released (.inl absent)) (cutEnd_left uncalled absent)⟩,
      fun x is other => ?_, fun shown is => ?_⟩
    · have gone := released (.inr (by rw [is]; exact differs_some fun e => other (Option.some_injective _ e).symm))
      exact ⟨fun goes => ⟨_, handBack_settles held _, goes' goes gone⟩, fun rest => ⟨_, handBack_settles held _,
        ends' rest gone (cutEnd_none (d := e.emptied) uncalled (Position.completes_present is) rfl)⟩⟩
    · have same := cutCard_same (s := s) (p := p) (d := e) (r := reportFields bits) claim shown is
      exact ⟨fun goes => goes' goes same, fun rest => ends' rest same (cutEnd_held uncalled shown claim)⟩
  · have left := cutCard_left (s := s) (p := p) (r := reportFields bits) (x := met) cut plain claim absent
    exact ⟨fun goes => goes' goes left, fun rest => ends' rest left (cutEnd_left uncalled absent)⟩
  · obtain ⟨-, -, sameClaim, sameCall⟩ := cutMet_kept met e
    have left := cutCard_met (s := s) (p := p) (r := reportFields bits) (x := met) cut plain claim shown
    exact ⟨fun goes => goes' goes left,
      fun rest => ends' rest left (cutEnd_none (sameCall.trans uncalled) shown (sameClaim.trans claim))⟩

/-- A report in a CUT from an unpaid call. -/
theorem reportsInUnpaidCut {s : State} {l : LineIx} {k : Fin 8} {bits : BitVec 38} (h : s.hears l k bits)
    (state : (s.ctx (posOf l k)).state = .cut) (call : (s.ctx (posOf l k)).call = none)
    (unpaid : (s.ctx (posOf l k)).order.verdict = .cutUnpaid) :
    let p := posOf l k
    let c := s.ctx p
    let e := s.heardAt l k bits
    let zone := bits.extractLsb' 9 4
    let present := bits.getLsbD 30
    let met := c.completes bits
    let leaves (d : Position) : Prop := s.closes l k (s.withCtx p d)
    let other := present = false ∨ (met ≠ none ∧ met ≠ c.refusedSerial)
    (other → (zone ≠ 0 → leaves e.unrefused) ∧
      (zone = 0 → leaves (e.unrefused.rests (if present then .reading else .vacant) (.plain .none 0)))) ∧
    (¬other → (zone ≠ 0 → leaves e) ∧
      (zone = 0 → leaves (if c.refusedSerial ≠ none then e.rests .refused c.showsRefusal
        else e.rests .reading (.plain .none 0)))) := by
  intro p c e zone present met leaves other
  have plain : e.order = .plain e.order.verdict 0 := (h.orders p).trans (currentOrder_cut state)
  have taken := unpaidCutReport_eq (s := s) (p := p) (d := e) (r := reportFields bits) (x := met) state plain call
  have closes : s.closes l k ((s.withCtx p e).unpaidCutReport p (reportFields bits) met) := by
    refine h.cut state ?_
    show (s.withCtx p e).cutReport p (reportFields bits) met = _
    unfold State.cutReport
    rw [State.ctx_withCtx_same]
    exact if_pos unpaid
  have differ : other ↔ ((reportFields bits).present = false ∨ differs met e.refusedSerial = true) := by
    refine or_congr Iff.rfl ?_
    unfold differs
    rw [Bool.and_eq_true_iff, Option.isSome_iff_ne_none, bne_iff_ne]
    rfl
  rw [taken] at closes
  dsimp only at closes
  refine ⟨fun is => ?_, fun not => ?_⟩
  · rw [if_pos (differ.1 is)] at closes
    refine ⟨fun goes => ?_, fun rest => ?_⟩
    · rw [if_pos (show (reportFields bits).zone ≠ 0 from goes)] at closes
      exact closes
    · rw [if_neg (show ¬(reportFields bits).zone ≠ 0 from not_not.2 rest)] at closes
      by_cases shown : present = true
      · rw [if_neg (show ¬(reportFields bits).present = false by rw [show (reportFields bits).present = true from shown]; nofun),
          if_neg (show ¬e.unrefused.refusedSerial ≠ none from not_not.2 rfl)] at closes
        rw [if_pos shown]
        exact closes
      · rw [if_pos (show (reportFields bits).present = false from Bool.eq_false_iff.2 shown)] at closes
        rw [if_neg shown]
        exact closes
  · rw [if_neg fun is => not (differ.2 is)] at closes
    have shown : present ≠ false := fun absent => not (.inl absent)
    refine ⟨fun goes => ?_, fun rest => ?_⟩
    · rw [if_pos (show (reportFields bits).zone ≠ 0 from goes)] at closes
      exact closes
    · rw [if_neg (show ¬(reportFields bits).zone ≠ 0 from not_not.2 rest),
        if_neg (show ¬(reportFields bits).present = false from shown)] at closes
      exact closes

theorem cutMet_none (d : Position) : d.cutMet none = d := by
  unfold Position.cutMet
  dsimp only
  rw [if_neg (by rintro ⟨-, h⟩; nomatch h), if_neg nofun]

theorem cutMet_some (x : Serial) (d : Position) : d.cutMet (some x) =
    let e := if d.refusedSerial = some x then d else d.unrefused
    if d.outstanding ≠ none ∧ d.candidate ≠ some x then { e.abandoned with candidate := none } else e := by
  have differ : ∀ known : Option Serial, differs (some x) known = true ↔ known ≠ some x := fun known => by
    unfold differs
    rw [Option.isSome_some, Bool.true_and, bne_iff_ne]
    exact ne_comm
  have forgets : (if differs (some x) d.refusedSerial = true then d.unrefused else d) =
      if d.refusedSerial = some x then d else d.unrefused := by
    rw [if_congr (differ _) rfl rfl, ite_not]
  unfold Position.cutMet
  dsimp only
  rw [forgets]
  exact if_congr (and_congr Iff.rfl (differ _)) rfl rfl

theorem rateInGrace_eq (q : Call) (e : TariffEntry) (c : Position) : q.rateInGrace e c.cls = match c.claim with
    | some held => e.rateFor held.cls
    | none => q.rateUsed := by
  unfold Position.cls
  cases c.claim <;> rfl

/-- Settles O29. -/
theorem reportsInGraceAndCut : Obligations.ReportsInGraceAndCut := by
  intro s l k bits hears p c present zone pulse h met leaves sends rests ends
  have ends_of : ∀ u : State, s.closes l k (u.withCtx p (u.ctx p).graceEnded) ∧ (u.ctx p).claiming → ends u := by
    rintro u ⟨closes, claiming⟩
    show s.closes l k (u.withCtx p _)
    refine (congrArg (fun d => s.closes l k (u.withCtx p d)) ?_).mp closes
    generalize u.ctx p = d at claiming
    unfold Position.graceEnded
    obtain metered | ⟨grace, j, call, sub⟩ := claiming
    · rw [metered]
      rfl
    · rw [grace, call]
      obtain sub | sub | sub := sub <;> rw [Option.map_some, sub] <;> rfl
  refine ⟨fun q state call quiet => ?_, fun q v state call pulsed last other => ?_, fun state call paid => ?_,
    fun state call unpaid => reportsInUnpaidCut hears state call unpaid⟩
  · intro moves
    have heard : s.hearsGrace l k bits q := { hears with grace := state, call := call, quiet := quiet }
    obtain ⟨absent, reading⟩ := reportsInGrace_reading heard
    refine ⟨fun held sub claim => ?_, fun sub => absent sub, fun sub => ?_, fun sub => ?_, fun sub => ?_⟩
    · obtain ⟨left, leftEnds, swapped, swappedEnds, same⟩ := reportsInGrace_old heard sub claim
      refine ⟨left, leftEnds, swapped, fun x is other rest => ?_, same⟩
      obtain ⟨u, settles, closes⟩ := swappedEnds x is other rest
      exact ⟨u, settles, ends_of _ closes⟩
    · obtain ⟨left, none, met⟩ := reading sub
      exact ⟨left, none, fun x is => ⟨fun goes => (met x is).1 goes, fun rest => ends_of _ ((met x is).2 rest)⟩⟩
    · obtain ⟨left, other, same, again⟩ := reportsInGrace_checking heard sub
      exact ⟨left, other, same, fun x shown is answered candidate =>
        ⟨fun goes => (again x shown is answered candidate).1 goes,
          fun rest => ends_of _ ((again x shown is answered candidate).2 rest)⟩⟩
    · obtain ⟨left, other, same⟩ := reportsInGrace_refused heard sub
      exact ⟨left, fun x is differ => ⟨fun goes => (other x is differ).1 goes,
        fun rest => ends_of _ ((other x is differ).2 rest)⟩, same⟩
  · obtain ⟨barred, usable⟩ := reportsInGrace_pulses hears state call pulsed last other
    refine ⟨fun none => ?_, fun e entry => ?_⟩
    · obtain ⟨same, rest⟩ := barred none
      exact ⟨same, fun _ held claim shown is goes => rest held claim is shown goes (.inr (.inr ⟨rfl, nofun⟩))⟩
    · have next := usable e entry
      rw [rateInGrace_eq] at next
      refine ⟨fun large => ?_, fun small => ?_⟩
      · obtain ⟨same, rest⟩ := next.1 large
        exact ⟨same, fun _ held claim shown is goes => rest held claim is shown goes (.inr (.inr ⟨rfl, nofun⟩))⟩
      · obtain ⟨same, rest⟩ := next.2 small
        exact ⟨same, fun sub held claim shown is goes =>
          rest held claim is shown goes (.inr (.inl ⟨state, congrArg some sub⟩))⟩
  · obtain ⟨card, free⟩ := reportsInCut hears state call paid
    refine ⟨card, fun claim => ?_⟩
    obtain ⟨left, shows⟩ := free claim
    refine ⟨left, fun shown none => ?_, fun x is => ?_⟩
    · have closes := shows shown
      rw [show (s.ctx (posOf l k)).completes bits = .none from none, cutMet_none] at closes
      exact closes
    · have closes := shows (Position.completes_present is)
      rw [show (s.ctx (posOf l k)).completes bits = some x from is, cutMet_some] at closes
      exact closes

end Sys2Proof.Machine
end

section
/-!
PROOFS. The reads of the rebuild (O42).
-/

namespace Sys2Proof.Machine

/-! ### The completion of a read as held -/

/-- A read completes from the cells as they are held. -/
theorem readComplete_held {s : State} {r : ReadRequest} (h : s.pins.released = true) (wf : storeWf s.store = true)
    (reading : s.rebuildAsks.engine.reading = some r) :
    exec (.storeReadComplete .asHeld) s = .next ((s.rebuildAsks.deliverRead r).serveNext) := by
  rw [readComplete_next h reading, State.onRecord_same (State.storeWf_rebuildAsks wf) r.slot
    (f := fun x => x.after r.granule .asHeld) (Record.after_asHeld _ _)]

/-- While a read is in flight the rebuild asks for none. -/
theorem State.rebuildAsks_busy {s : State} {r : ReadRequest} (reading : s.engine.reading = some r) : s.rebuildAsks = s := by
  unfold State.rebuildAsks
  split
  · exact if_pos (by rw [reading]; rfl)
  · rfl

/-- The read in flight completes. -/
theorem readComplete_busy {s : State} {r : ReadRequest} (h : s.pins.released = true) (wf : storeWf s.store = true)
    (reading : s.engine.reading = some r) :
    exec (.storeReadComplete .asHeld) s = .next ((s.deliverRead r).serveNext) := by
  have same := State.rebuildAsks_busy reading
  rw [readComplete_held h wf (r := r) (by rw [same]; exact reading), same]

/-- The part with the read `r` in flight. -/
def State.reads (s : State) (r : ReadRequest) : State := s.onEngine fun g => { g with reading := some r }

/-- The rebuild's read is in flight, or comes with the command while the engine rests (log 31). -/
theorem State.rebuildAsks_eq {s : State} {b : Rebuild} (there : s.dir.rebuild = some b)
    (idle : s.engine.reading = some b.request ∨ s.engine.reading = none ∧ s.engine.flight = none) :
    s.rebuildAsks = s.reads b.request := by
  obtain busy | ⟨none, resting⟩ := idle
  · rw [rebuildAsks_busy busy]
    show s = { s with engine := { s.engine with reading := some b.request } }
    rw [← busy]
  · unfold State.rebuildAsks
    rw [there]
    dsimp only
    rw [if_neg (by rw [none]; nofun), State.requestRead, if_neg (by rw [none]; nofun), State.suspend_resting (.inl resting)]
    rfl

/-- The engine once the read in flight has completed and no other waits: the suspended step goes on. -/
def Engine.rested (g : Engine) : Engine := { g with reading := none, suspended := false }

theorem State.serveNext_rested {s : State} (alone : s.engine.readList = []) : s.serveNext = s.onEngine Engine.rested := by
  unfold State.serveNext State.onEngine
  dsimp only
  rw [alone]
  exact congrArg (fun ws => ({ s with engine := { s.engine with reading := none, suspended := false, readList := ws } } : State))
    alone.symm

/-- An outcome with a valid content has been counted where it was corrected, and no other. -/
theorem ReadOutcome.isCorrected_of_valid {α : Type} {o : ReadOutcome α} (h : o.valid = none) : o.isCorrected = false := by
  cases o with
  | blank => rfl
  | bad => rfl
  | good a => nomatch h
  | corrected a => nomatch h

/-! ### The rebuild goes on -/

/-- The part after the rebuild has classified slot `x`, no read waiting. -/
def State.classified (s : State) (x : Slot) : State :=
  if h : x.val + 1 < 8192 then { s with
    dir := { s.dir with rebuild := some { slot := ⟨x.val + 1, h⟩, stage := .identity } }, engine := s.engine.rested }
  else { s with
    dir := { s.dir with rebuild := none, ready := true }, port := { s.port with mode := .running }, engine := s.engine.rested }

theorem rebuildNext_rests {s : State} (alone : s.engine.readList = []) (x : Slot) :
    (s.rebuildNext x).serveNext = s.classified x := by
  unfold State.rebuildNext State.classified
  split
  · exact State.serveNext_rested alone
  · exact State.serveNext_rested alone

/-- The part once the rebuild's read `r` has been counted. -/
def State.rebuildReads (s : State) (r : ReadRequest) (corrected : Bool) : State := (s.reads r).countCorrected corrected

theorem rebuildReads_readList {s : State} (alone : s.engine.readList = []) (r : ReadRequest) (corrected : Bool) :
    (s.rebuildReads r corrected).engine.readList = [] := by
  cases corrected <;> exact alone

/-- The engine after the rebuild's read, as the obligation writes it. -/
theorem rebuildReads_rested (s : State) (r : ReadRequest) (corrected : Bool) :
    (s.rebuildReads r corrected).engine.rested = { s.engine with
      reading := none, suspended := false
      corrected := if corrected then min 65535 (s.engine.corrected + 1) else s.engine.corrected } := by
  cases corrected <;> rfl

/-- The identity read of the rebuild (R28). -/
theorem rebuild_identity {s : State} {x : Slot} (h : s.pins.released = true) (wf : storeWf s.store = true)
    (there : s.dir.rebuild = some { slot := x, stage := .identity })
    (idle : s.engine.reading = some { who := .rebuild, slot := x, granule := .identity } ∨
      s.engine.reading = none ∧ s.engine.flight = none) :
    exec (.storeReadComplete .asHeld) s = .next (((s.rebuildReads { who := .rebuild, slot := x, granule := .identity }
      (readIdentity (s.record x).identity).isCorrected).rebuildIdentity x (readIdentity (s.record x).identity)).serveNext) := by
  have asks := State.rebuildAsks_eq there idle
  rw [readComplete_held h wf (r := { who := .rebuild, slot := x, granule := .identity }) (by rw [asks]; rfl), asks]
  rfl

/-- The rebuild's read of a value copy (R28). -/
theorem rebuild_value {s : State} {x : Slot} {stage : RebuildStage} {c : Copy} (h : s.pins.released = true)
    (wf : storeWf s.store = true) (there : s.dir.rebuild = some { slot := x, stage := stage }) (copy : stage.granule = c.granule)
    (idle : s.engine.reading = some { who := .rebuild, slot := x, granule := stage.granule } ∨
      s.engine.reading = none ∧ s.engine.flight = none) :
    exec (.storeReadComplete .asHeld) s = .next (((s.rebuildReads { who := .rebuild, slot := x, granule := c.granule }
      (readValue ((s.record x).copy c)).isCorrected).rebuildValue x (readValue ((s.record x).copy c))).serveNext) := by
  have asks := State.rebuildAsks_eq there idle
  rw [readComplete_held h wf (r := Rebuild.request { slot := x, stage := stage }) (by rw [asks]; rfl), asks, Rebuild.request]
  dsimp only
  rw [copy]
  cases c <;> rfl

/-! ### The entries of the queue while the directory is rebuilt -/

theorem hasWaitingValue_absent {s : State} {x : Slot} (absent : ∀ w ∈ s.engine.waiting, w.slot ≠ x) :
    s.hasWaitingValue x = false := by
  refine List.any_eq_false.2 fun w mem took => ?_
  exact absent w mem (beq_iff_eq.1 (Bool.and_eq_true_iff.1 took).2)

/-- A queue entry has appeared for a record for which no action waits. -/
theorem markAppeared_idle {s : State} {x : Slot} (idle : ∀ a, s.port.result = .working a → a.slot ≠ x) :
    s.markAppeared x = s.onDir fun d =>
      { d with claims := d.claims.map fun c => if c.slot = x then { c with appeared := true } else c } := by
  have port : (match s.port.result with
      | .working a => if a.slot = x then { s.port with result := .working { a with appeared := true } } else s.port
      | _ => s.port) = s.port := by
    split
    · next a working => exact if_neg (idle a working)
    · rfl
  unfold State.markAppeared
  exact congrArg (fun p => ({ s.onDir _ with port := p } : State)) port

/-- An entry that no claim holds takes no place. -/
theorem unqueuedClaims_indexed {s t : State} {e : DirEntry} (entries : t.dir.entries = s.dir.entries ++ [e])
    (waiting : t.engine.waiting = s.engine.waiting) (unclaimed : e.claimedBy = none) :
    t.unqueuedClaims = s.unqueuedClaims := by
  unfold State.unqueuedClaims State.hasWaitingValue
  rw [entries, waiting, List.filter_append, List.filter_singleton, unclaimed]
  show (List.filter _ _ ++ []).length = _
  rw [List.append_nil]

/-- A refresh offered for a record without a waiting entry, in the rebuild. -/
theorem offerValue_alone {s : State} {x : Slot} (absent : s.hasWaitingValue x = false) (running : s.port.mode ≠ .draining)
    (image : Image) (origin : Origin) : s.offerValue x image origin =
      if s.engine.waiting.length + 1 + s.unqueuedClaims + 1 ≤ 96 then
        some (s.joinQueue { work := .value image, slot := x, attempts := 0, origin := origin })
      else none := by
  unfold State.offerValue State.hasRoom
  rw [absent, if_neg Bool.false_ne_true, decide_eq_true running, Bool.true_and]
  by_cases room : s.engine.waiting.length + 1 + s.unqueuedClaims + 1 ≤ 96
  · rw [if_pos room]
    exact if_pos (decide_eq_true room)
  · rw [if_neg room]
    exact if_neg fun fits => room (of_decide_eq_true fits)

/-! ### O42 -/

/-- A slot is classified blank, bad or indexed already (R26, R28). -/
theorem rebuildIdentity_cases (x : Slot) (o : ReadOutcome Identity) (s : State) :
    (o = .blank → s.rebuildIdentity x o = (s.onDir fun d => { d with free := d.free ++ [x] }).rebuildNext x) ∧
    (o = .bad → s.rebuildIdentity x o = s.rebuildOrphan x) ∧
    ∀ i, o.valid = some i → s.rebuildIdentity x o =
      if (s.lookup i.serial).isSome then s.rebuildOrphan x else s.rebuildAt x (.copyA i) := by
  refine ⟨?_, ?_, fun i valid => ?_⟩
  · rintro rfl
    rfl
  · rintro rfl
    rfl
  · unfold State.rebuildIdentity
    rw [valid]

/-- The entry of the directory that the rebuild makes, as the obligation writes it. -/
theorem rebuiltEntry_eq (x : Slot) (i : Identity) (a b : Option (Image × Gen)) :
    rebuiltEntry x i (liveOf a b) = {
      serial := i.serial, slot := x, cls := i.cls, claimedBy := none
      condition := if a = none ∧ b = none then .damaged else .good
      live := (liveOf a b).map fun l => (l.1, l.2.2) } := by
  have condition : (if (liveOf a b).isSome then Condition.good else .damaged) = if a = none ∧ b = none then .damaged else .good := by
    cases a with
    | none =>
      cases b with
      | none => rfl
      | some b => rfl
    | some a =>
      cases b with
      | none => rfl
      | some b =>
        show (if (if _ then _ else _ : Option (Copy × Image × Gen)).isSome then Condition.good else .damaged) = .good
        split <;> rfl
  unfold rebuiltEntry
  rw [condition]

/-- Copy B's read indexes the slot (R28). -/
theorem rebuildValue_indexes {s : State} {x : Slot} {i : Identity} {first : Option (Image × Gen)} {weak : Bool}
    (there : s.dir.rebuild = some { slot := x, stage := .copyB i first weak }) (o : ReadOutcome (Image × Gen)) :
    s.rebuildValue x o = s.rebuildIndex x i first o.valid (weak || o.isCorrected) := by
  unfold State.rebuildValue
  rw [there]
  rfl

/-- The engine once the rebuild's read has completed, a corrected one counted. -/
def Engine.resumed (g : Engine) (corrected : Bool) : Engine := { g with
  reading := none, suspended := false
  corrected := if corrected then min 65535 (g.corrected + 1) else g.corrected }

/-- The part after the classification of slot `x`, with the queue's engine `g` and the directory `d`. -/
def State.goesOnFrom (u : State) (g : Engine) (d : Directory) (x : Slot) : State :=
  if h : x.val + 1 < 8192 then { u with
    dir := { d with rebuild := some { slot := ⟨x.val + 1, h⟩, stage := .identity } }, engine := g }
  else { u with
    dir := { d with rebuild := none, ready := true }, port := { u.port with mode := .running }, engine := g }

theorem rebuildNext_goesOn {t u : State} {x : Slot} {d : Directory} {g : Engine} (alone : t.engine.readList = [])
    (rest : t = { u with engine := t.engine, dir := d }) (engine : t.engine.rested = g) :
    (t.rebuildNext x).serveNext = u.goesOnFrom g d x := by
  rw [rebuildNext_rests alone, rest]
  unfold State.classified State.goesOnFrom
  rw [← engine]

theorem rebuildAt_goesOn {s : State} {r : ReadRequest} {weak : Bool} (alone : s.engine.readList = []) (x : Slot)
    (stage : RebuildStage) : ((s.rebuildReads r weak).rebuildAt x stage).serveNext = { s with
      dir := { s.dir with rebuild := some { slot := x, stage := stage } }, engine := s.engine.resumed weak } := by
  refine (State.serveNext_rested (s := (s.rebuildReads r weak).rebuildAt x stage) (rebuildReads_readList alone r weak)).trans ?_
  exact congrArg (fun g => ({ s with dir := { s.dir with rebuild := some { slot := x, stage := stage } }, engine := g } : State))
    (rebuildReads_rested s r weak)

/-- The identity read of the rebuild's slot, no other read waiting. -/
theorem rebuildIdentity_next {s : State} (alone : s.engine.readList = []) (r : ReadRequest) (x : Slot)
    (o : ReadOutcome Identity) :
    (o = .blank → ((s.rebuildReads r o.isCorrected).rebuildIdentity x o).serveNext =
      s.goesOnFrom (s.engine.resumed false) { s.dir with free := s.dir.free ++ [x] } x) ∧
    (o = .bad → ((s.rebuildReads r o.isCorrected).rebuildIdentity x o).serveNext =
      s.goesOnFrom (s.engine.resumed false) { s.dir with orphans := s.dir.orphans + 1 } x) ∧
    ∀ i, o.valid = some i →
      ((s.lookup i.serial).isSome = true → ((s.rebuildReads r o.isCorrected).rebuildIdentity x o).serveNext =
        s.goesOnFrom (s.engine.resumed o.isCorrected) { s.dir with orphans := s.dir.orphans + 1 } x) ∧
      (s.lookup i.serial = none → ((s.rebuildReads r o.isCorrected).rebuildIdentity x o).serveNext = { s with
        dir := { s.dir with rebuild := some { slot := x, stage := .copyA i } }, engine := s.engine.resumed o.isCorrected }) := by
  refine ⟨?_, ?_, fun i valid => ?_⟩
  · rintro rfl
    exact rebuildNext_goesOn alone rfl rfl
  · rintro rfl
    exact rebuildNext_goesOn alone rfl rfl
  · have read := (rebuildIdentity_cases x o (s.rebuildReads r o.isCorrected)).2.2 i valid
    refine ⟨fun indexed => ?_, fun fresh => ?_⟩
    · rw [read, if_pos (show ((s.rebuildReads r o.isCorrected).lookup i.serial).isSome = true from indexed)]
      exact rebuildNext_goesOn (rebuildReads_readList alone r _) rfl (rebuildReads_rested s r _)
    · rw [read, if_neg (by rw [show (s.rebuildReads r o.isCorrected).lookup i.serial = none from fresh]; nofun)]
      exact rebuildAt_goesOn alone x _

/-- The part with the rebuild's entry of a slot indexed. -/
def State.indexes (x : Slot) (i : Identity) (live : Option (Copy × Image × Gen)) (s : State) : State :=
  s.onDir fun d => { d with entries := d.entries ++ [rebuiltEntry x i live] }

/-- What the rebuild offers or raises for a slot indexed. -/
def State.rebuildOffers (x : Slot) (live : Option (Copy × Image × Gen)) (corrected : Bool) (s : State) : State :=
  match live with
  | some (_, image, _) => if corrected then (s.offerValue x image .refresh).getD s else s
  | none => s.raiseStoreFault x none

theorem rebuildIndex_eq (x : Slot) (i : Identity) (a b : Option (Image × Gen)) (corrected : Bool) (s : State) :
    s.rebuildIndex x i a b corrected = ((s.indexes x i (liveOf a b)).rebuildOffers x (liveOf a b) corrected).rebuildNext x := rfl

/-- The rebuild indexes its slot (R28). -/
theorem rebuildIndex_next {s : State} (alone : s.engine.readList = []) (r : ReadRequest) (x : Slot) (i : Identity)
    (first second : Option (Image × Gen)) (weak corrected : Bool) {indexed : Directory}
    (dir : indexed = { s.dir with entries := s.dir.entries ++ [rebuiltEntry x i (liveOf first second)] }) :
    (liveOf first second = none → ((s.rebuildReads r weak).rebuildIndex x i first second corrected).serveNext =
      (s.raiseStoreFault x none).goesOnFrom (s.engine.resumed weak) indexed x) ∧
    (liveOf first second ≠ none → corrected = false →
      ((s.rebuildReads r weak).rebuildIndex x i first second corrected).serveNext =
        s.goesOnFrom (s.engine.resumed weak) indexed x) ∧
    ∀ copy image n, corrected = true → liveOf first second = some (copy, image, n) → s.port.mode = .starting →
      (∀ w ∈ s.engine.waiting, w.slot ≠ x) → (∀ act, s.port.result = .working act → act.slot ≠ x) →
      (s.engine.waiting.length + 1 + s.unqueuedClaims + 1 ≤ 96 →
        ((s.rebuildReads r weak).rebuildIndex x i first second corrected).serveNext = s.goesOnFrom
          { s.engine.resumed weak with waiting := s.engine.waiting ++
            [{ work := .value image, slot := x, attempts := 0, origin := .refresh }] }
          { indexed with
            claims := s.dir.claims.map fun c => if c.slot = x then { c with appeared := true } else c } x) ∧
      (96 < s.engine.waiting.length + 1 + s.unqueuedClaims + 1 →
        ((s.rebuildReads r weak).rebuildIndex x i first second corrected).serveNext =
          s.goesOnFrom (s.engine.resumed weak) indexed x) := by
  have rested := rebuildReads_rested s r weak
  have list := rebuildReads_readList alone r weak
  subst dir
  rw [rebuildIndex_eq]
  generalize liveOf first second = live
  refine ⟨?_, fun some' whole => ?_, fun copy image n weakly is starting absent idle => ?_⟩
  · rintro rfl
    exact rebuildNext_goesOn list rfl rested
  · subst whole
    cases live with
    | none => exact absurd rfl some'
    | some l => exact rebuildNext_goesOn list rfl rested
  · subst is weakly
    have waiting : (s.rebuildReads r weak).engine.waiting = s.engine.waiting := by cases weak <;> rfl
    generalize entry : (s.rebuildReads r weak).indexes x i (some (copy, image, n)) = t
    have unqueued : t.unqueuedClaims = s.unqueuedClaims :=
      unqueuedClaims_indexed (e := rebuiltEntry x i (some (copy, image, n))) (by rw [← entry]; rfl) (by rw [← entry]; exact waiting) rfl
    have waits : t.engine.waiting = s.engine.waiting := by rw [← entry]; exact waiting
    have offered := offerValue_alone (s := t) (x := x) (hasWaitingValue_absent (by rw [waits]; exact absent))
      (by rw [show t.port.mode = .starting by rw [← entry]; exact starting]; nofun) image .refresh
    rw [waits, unqueued] at offered
    show (_ → (State.rebuildNext x ((t.offerValue x image .refresh).getD t)).serveNext = _) ∧
      (_ → (State.rebuildNext x ((t.offerValue x image .refresh).getD t)).serveNext = _)
    rw [offered]
    refine ⟨fun fits => ?_, fun full => ?_⟩
    · rw [if_pos fits, Option.getD_some, State.joinQueue, markAppeared_idle (by rw [← entry]; exact idle), ← entry]
      refine rebuildNext_goesOn list rfl ?_
      exact congrArg₂ (fun (g : Engine) before => { g with
        waiting := before ++ [({ work := .value image, slot := x, attempts := 0, origin := .refresh } : QueueEntry)] }) rested waiting
    · rw [if_neg (not_le.2 full), Option.getD_none, ← entry]
      exact rebuildNext_goesOn list rfl rested

/-- Settles O42. -/
theorem theRebuildClassifiesSlots : Obligations.TheRebuildClassifiesSlots := by
  intro s x stage released wf there alone idle resumed goOnFrom goOn readOn o a b
  have identity (at' : stage = .identity) := rebuild_identity released wf (there.trans (by rw [at'])) (by rw [at'] at idle; exact idle)
  obtain ⟨blank, bad, valid⟩ := rebuildIdentity_next alone { who := .rebuild, slot := x, granule := .identity } x o
  refine ⟨fun at' is => (identity at').trans (congrArg _ (blank is)), fun at' is => (identity at').trans (congrArg _ (bad is)),
    fun i at' is => ⟨fun indexed => (identity at').trans (congrArg _ ((valid i is).1 indexed)),
      fun fresh => (identity at').trans (congrArg _ ((valid i is).2 fresh))⟩, fun i at' => ?_, fun i first weak at' => ?_⟩
  · refine (rebuild_value released wf there (c := .a) (by rw [at']; rfl) idle).trans (congrArg _ ?_)
    have read : (s.rebuildReads { who := .rebuild, slot := x, granule := .copyA } a.isCorrected).rebuildValue x a =
        (s.rebuildReads { who := .rebuild, slot := x, granule := .copyA } a.isCorrected).rebuildAt x (.copyB i a.valid a.isCorrected) := by
      unfold State.rebuildValue
      rw [show (s.rebuildReads _ a.isCorrected).dir.rebuild = some { slot := x, stage := .copyA i } from there.trans (by rw [at'])] <;> rfl
    exact (congrArg State.serveNext read).trans (rebuildAt_goesOn alone x _)
  · have read := rebuild_value released wf there (c := .b) (by rw [at']; rfl) idle
    rw [rebuildValue_indexes (s := s.rebuildReads _ _) (there.trans (by rw [at']))] at read
    obtain ⟨damaged, whole, refreshed⟩ := rebuildIndex_next alone { who := .rebuild, slot := x, granule := .copyB } x i first b.valid
      b.isCorrected (weak || b.isCorrected)
      (indexed := { s.dir with entries := s.dir.entries ++ [{
        serial := i.serial, slot := x, cls := i.cls, claimedBy := none
        condition := if first = none ∧ b.valid = none then .damaged else .good
        live := (liveOf first b.valid).map fun l => (l.1, l.2.2) }] })
      (by rw [rebuiltEntry_eq])
    refine ⟨fun none => read.trans (congrArg _ (damaged none)), fun some' strong => read.trans (congrArg _ (whole some' strong)),
      fun copy image n weakly is starting absent idle => ?_⟩
    obtain ⟨fits, full⟩ := refreshed copy image n weakly is starting absent idle
    exact ⟨fun room => read.trans (congrArg _ (fits room)), fun none => read.trans (congrArg _ (full none))⟩


end Sys2Proof.Machine
end

section
/-!
PROOFS. The reads of a claim and of a CREDIT complete (O43).
-/

namespace Sys2Proof.Machine

/-! ### The end of a read -/

/-- The engine goes on with the next request, or with the step that was suspended (R131). -/
theorem State.serveNext_eq (s : State) : s.serveNext = { s with engine := { s.engine with
    reading := s.engine.readList.head?, readList := s.engine.readList.tail
    suspended := s.engine.suspended && !s.engine.readList.isEmpty } } := by
  unfold State.serveNext State.onEngine
  dsimp only
  cases list : s.engine.readList with
  | nil =>
    rw [show (s.engine.suspended && !([] : List ReadRequest).isEmpty) = false from Bool.and_false _]
    rfl
  | cons r rest =>
    rw [show (s.engine.suspended && !(r :: rest).isEmpty) = s.engine.suspended from Bool.and_true _]
    rfl

/-- A read of a value copy completes. -/
theorem readComplete_value {s : State} {who : Requester} {x : Slot} {c : Copy} (h : s.pins.released = true)
    (wf : storeWf s.store = true) (reading : s.engine.reading = some { who := who, slot := x, granule := c.granule }) :
    exec (.storeReadComplete .asHeld) s = .next (((s.countCorrected (readValue ((s.record x).copy c)).isCorrected).valueRead
      { who := who, slot := x, granule := c.granule } c (readValue ((s.record x).copy c))).serveNext) := by
  rw [readComplete_busy h wf reading]
  cases c <;> rfl

/-! ### A claim with its image -/

section
variable {s : State} {p : Pos} {e : DirEntry} {i : Image}

/-- A claim's reads are over, and no queue entry has appeared since (R33). -/
theorem resolveClaim_read {c : FlightClaim} (claim : s.claimOf p = some c) (unqueued : s.queuedImage c.slot = none)
    (still : c.appeared = false) (image : Option Image) : s.resolveClaim p image = s.finishClaim c image := by
  unfold State.resolveClaim
  rw [claim]
  dsimp only
  rw [unqueued, still]

/-- The claim takes the newest queued image (R33). -/
theorem resolveClaim_queued {c : FlightClaim} (claim : s.claimOf p = some c) (queued : s.queuedImage c.slot = some i)
    (image : Option Image) : s.resolveClaim p image = s.finishClaim c (some i) := by
  unfold State.resolveClaim
  rw [claim]
  dsimp only
  rw [queued]

/-- A card that passes every test is granted (R33). -/
theorem completeClaim_grants {x : Serial} (found : s.lookup x = some e) (good : e.condition = .good)
    (unclaimed : e.claimedBy = none) (powered : s.pins.pwrlow = false) (open' : i.state ≠ .blocked) (dateless : i.expiry = 0)
    (full : i.state ≠ .empty) (rich : i.balance ≠ 0) (room : s.hasRoom = true) : s.completeClaim x p (some i) =
      (s.onEntry e.slot fun e => { e with claimedBy := some p }, .accepted e.slot e.cls (i.granted p s.today)) := by
  rw [completeClaim_reached found good unclaimed powered, if_neg open',
    if_neg fun old => ((i.expired_iff s.today).1 old).1 dateless, if_neg fun poor => poor.1.elim full rich,
    if_neg (by rw [room]; nofun)]

/-- A claim alone that is granted completes with the answer (R33). -/
theorem finishClaim_alone {t : State} {c : FlightClaim} {x : Slot} {cls : CardClass} {image : Image} (alone : c.held = [])
    (granted : (s.onDir fun d => { d with claims := d.claims.filter fun k => k.position != c.position }).completeClaim
      c.serial c.position (some i) = (t, .accepted x cls image)) :
    s.finishClaim c (some i) = t.takeAnswer c.position (.accepted x cls image) := by
  unfold State.finishClaim
  dsimp only
  rw [granted, alone]
  rfl

/-- A claim in CHECKING that is accepted, whatever the order shows. -/
theorem takeAnswer_held {y : Serial} {x : Slot} {cls : CardClass} (state : (s.ctx p).state = .checking)
    (outstanding : (s.ctx p).outstanding = some { serial := y, abandoned := false }) :
    s.takeAnswer p (.accepted x cls i) = s.withCtx p { Position.takeCard x y cls i (s.ctx p).answered with
      state := .held, order := .plain .accepted i.balance } := by
  unfold State.takeAnswer
  rw [outstanding]
  dsimp only
  rw [state, State.onCtx_eq]
  refine (if_neg nofun).trans ?_
  exact State.withCtx_onCtx _ _ _ _

theorem hasRoom_running (running : s.port.mode = .running)
    (room : s.engine.waiting.length + 1 + s.unqueuedClaims + 1 ≤ 96) : s.hasRoom = true := by
  unfold State.hasRoom
  rw [running]
  exact decide_eq_true room

/-- A claim's read of a good live copy, no entry of the record in the queue. -/
theorem claimRead_good {c : FlightClaim} {copy : Copy} {g : Gen} (claim : s.claimOf p = some c) (first : c.second = false)
    (unqueued : s.queuedImage c.slot = none) (still : c.appeared = false) :
    s.claimRead p copy (.good (i, g)) = s.finishClaim c (some i) := by
  unfold State.claimRead
  rw [claim]
  show State.resolveClaim p (some i) (if c.second then s.noteLive c.slot copy g else s) = _
  rw [first]
  exact resolveClaim_read claim unqueued still _

end

/-! ### An abandoned claim granted -/

/-- A granted image that is ACTIVE keeps its state and its balance. -/
theorem granted_settlement {i : Image} {x : Slot} {y : Serial} {cls : CardClass} (p : Pos) (today : BitVec 16)
    (active : i.state = .active) (rich : i.balance ≠ 0) :
    Claim.settlement { slot := x, serial := y, cls := cls, image := i.granted p today } i.balance false = { i with
      useCount := if i.useCount = 0xFFFF#16 then i.useCount else i.useCount + 1
      lastPosition := some p, lastUseDay := today } := by
  unfold Claim.settlement Image.granted
  dsimp only
  rw [active, if_neg rich]
  rfl

/-- An entry joins the queue, and neither a claim nor an action waits for its record. -/
theorem joinQueue_alone {s : State} {w : QueueEntry} (alone : s.dir.claims = [])
    (idle : ∀ a, s.port.result = .working a → a.slot ≠ w.slot) :
    s.joinQueue w = s.onEngine fun g => { g with waiting := g.waiting ++ [w] } := by
  rw [State.joinQueue, markAppeared_idle (s := s.onEngine _) idle]
  show ({ s with engine := _, dir := { s.dir with claims := s.dir.claims.map _ } } : State) = _
  rw [alone]
  exact congrArg (fun cs => ({ s.onEngine _ with dir := { s.dir with claims := cs } } : State)) alone.symm

/-! ### A CREDIT with its image -/

/-- The read of a CREDIT's good live copy. -/
theorem actionValue_good {s : State} {a : HostAction} {copy : Copy} {identity : Option Identity} {i : Image} {g : Gen}
    (working : s.port.result = .working a) (stage : a.stage = .live identity) :
    s.actionValue copy (.good (i, g)) = s.actionResolved a identity (some i) := by
  unfold State.actionValue
  rw [working]
  dsimp only
  rw [stage]
  rfl

theorem claimPending_none {s : State} {x : Serial} (alone : ∀ c ∈ s.dir.claims, c.serial ≠ x) : s.claimPending x = false := by
  refine List.any_eq_false.2 fun c mem mine => alone c mem (beq_iff_eq.1 mine)

/-- The one claim in flight, before anything has happened to it. -/
def FlightClaim.sole (e : DirEntry) (p : Pos) : FlightClaim :=
  { serial := e.serial, slot := e.slot, position := p, second := false, appeared := false, held := [] }

/-- The part once the one claim in flight has left, and its record is claimed by `p`. -/
def State.granting (s : State) (e : DirEntry) (p : Pos) : State := { s with dir := { s.dir with
  claims := [], entries := s.dir.entries.map fun d => if d.slot = e.slot then { d with claimedBy := some p } else d } }

/-- A claim's read of a good live copy grants the card (R33). -/
theorem claimRead_grants {s : State} {p : Pos} {e : DirEntry} {i : Image} {g : Gen} {copy : Copy}
    (running : s.port.mode = .running) (found : s.lookup e.serial = some e) (good : e.condition = .good)
    (unclaimed : e.claimedBy = none) (unqueued : s.queuedImage e.slot = none)
    (room : s.engine.waiting.length + 1 + s.unqueuedClaims + 1 ≤ 96) (claims : s.dir.claims = [.sole e p])
    (powered : s.pins.pwrlow = false) (open' : i.state ≠ .blocked) (dateless : i.expiry = 0) (full : i.state ≠ .empty)
    (rich : i.balance ≠ 0) : s.claimRead p copy (.good (i, g)) =
      (s.granting e p).takeAnswer p (.accepted e.slot e.cls (i.granted p s.today)) := by
  have claim : s.claimOf p = some (.sole e p) := by
    unfold State.claimOf
    rw [claims]
    exact List.find?_cons_of_pos (beq_self_eq_true p)
  have left : (s.onDir fun d => { d with claims := d.claims.filter fun k => k.position != p }) =
      { s with dir := { s.dir with claims := [] } } := by
    have gone : s.dir.claims.filter (fun k => k.position != p) = [] := by
      rw [claims, List.filter_cons_of_neg (by rw [show (FlightClaim.sole e p).position = p from rfl, bne_self_eq_false]; nofun)]
      rfl
    exact congrArg (fun cs => ({ s with dir := { s.dir with claims := cs } } : State)) gone
  rw [claimRead_good claim rfl unqueued rfl]
  refine finishClaim_alone (c := .sole e p) rfl ?_
  show State.completeClaim e.serial p (some i) (s.onDir fun d => { d with claims := d.claims.filter fun k => k.position != p }) = _
  rw [left, completeClaim_grants (s := { s with dir := { s.dir with claims := [] } }) (e := e) found good unclaimed powered open' dateless full rich
    (hasRoom_running (s := { s with dir := { s.dir with claims := [] } }) running room)]
  rfl

/-- An action that was working is answered (R151, R156). -/
theorem answerAction_working {s : State} {a : HostAction} (working : s.port.result = .working a) (kind : ActionKind)
    (code : ReplyCode) (data : Word) : s.answerAction kind code data = { s with port := { s.port with
      latch := if kind.isLatched then false else s.port.latch, result := .unsent, reply := { code := code, data := data } } } := by
  unfold State.answerAction State.onPort State.answer
  dsimp only [State.onPort]
  rw [working]

/-- An action that was working queues its image and is answered (R151, R156, R159). -/
theorem answerAction_joined {s : State} {a : HostAction} (working : s.port.result = .working a) (w : QueueEntry)
    (kind : ActionKind) (code : ReplyCode) (data : Word) : (s.joinQueue w).answerAction kind code data = { s with
      dir := { s.dir with claims := s.dir.claims.map fun c => if c.slot = w.slot then { c with appeared := true } else c }
      engine := { s.engine with waiting := s.engine.waiting ++ [w] }
      port := { s.port with
        latch := if kind.isLatched then false else s.port.latch, result := .unsent
        reply := { code := code, data := data } } } := by
  have port : ∃ b, (s.joinQueue w).port = { s.port with result := .working b } := by
    obtain ⟨same, marks⟩ := State.offers.port_markAppeared w.slot s
    obtain kept | ⟨b, -, marked⟩ := marks
    · exact ⟨a, same.trans (by rw [kept, working])⟩
    · exact ⟨_, same.trans (by rw [marked])⟩
  obtain ⟨b, port⟩ := port
  rw [answerAction_working (a := b) (by rw [port]), port]
  rfl

/-- The image read serves a CREDIT of a card that nothing claims. -/
theorem resolveCredit {s : State} {e : DirEntry} {copy : Copy} {g : Gen} (found : s.lookup e.serial = some e)
    (good : e.condition = .good) (unclaimed : e.claimedBy = none) (live : e.live = some (copy, g))
    (unqueued : s.queuedImage e.slot = none) (claims : s.dir.claims = []) (i : Image) {x : Slot} {stage : ActionStage}
    {identity : Option Identity} :
    s.actionResolved { kind := .credit, serial := e.serial, slot := x, stage := stage, appeared := false } identity (some i) =
      s.applyAction .credit e.slot i := by
  have unused : s.inUse e = false := by
    unfold State.inUse
    rw [unclaimed, claimPending_none (by rw [claims]; nofun)]
    rfl
  unfold State.actionResolved
  dsimp only
  rw [found]
  show State.fromStepSix .credit e (.image i) s = _
  unfold State.fromStepSix
  rw [if_neg (by rw [unused]; rintro ⟨-, h⟩; nomatch h), if_neg nofun]
  dsimp only
  rw [if_neg (by rw [good]; nofun), live]
  dsimp only
  rw [if_neg nofun, unqueued]

/-- Settles O43. -/
theorem readsCompleteForClaimsAndActions : Obligations.ReadsCompleteForClaimsAndActions := by
  intro s e copy g i released wf running found good unclaimed live read unqueued unwaiting alone room
  have counted (who : Requester) (reading : s.engine.reading = some { who := who, slot := e.slot, granule := copy.granule }) :
      exec (.storeReadComplete .asHeld) s = .next ((s.valueRead { who := who, slot := e.slot, granule := copy.granule } copy
        (.good (i, g))).serveNext) := by
    have completes := readComplete_value released wf reading
    rw [read] at completes
    exact completes
  refine ⟨fun p reading claims powered checking outstanding open' dateless full rich => ?_,
    fun reading claims working most => ?_,
    fun p reading claims powered orders idle outstanding active dateless rich => ?_⟩
  · rw [counted (.claim p) reading]
    show Host.Outcome.next (State.serveNext (s.claimRead p copy (.good (i, g)))) = _
    rw [claimRead_grants running found good unclaimed unqueued room claims powered open' dateless full rich,
      takeAnswer_held (s := s.granting e p) checking outstanding]
    have image : i.granted p s.today = { i with
        state := .active, useCount := if i.useCount = 0xFFFF#16 then i.useCount else i.useCount + 1
        lastPosition := some p, lastUseDay := if s.tariff.daySet ∧ s.tariff.timeSet then s.tariff.day else 0 } := by
      have state : (if i.state = .fresh then CardState.active else i.state) = .active := by
        cases h : i.state with
        | fresh => rfl
        | active => rfl
        | blocked => exact absurd h open'
        | empty => exact absurd h full
      rw [Image.granted, state, State.today_eq]
    rw [image, State.serveNext_rested (s := (s.granting e p).withCtx p _) alone]
    rfl
  · rw [counted .host reading]
    show Host.Outcome.next (State.serveNext (s.actionValue copy (.good (i, g)))) = _
    rw [actionValue_good working rfl]
    rw [resolveCredit found good unclaimed live unqueued claims i, State.applyAction, ActionKind.build]
    dsimp only
    rw [if_neg (not_lt.2 most)]
    dsimp only
    rw [offerValue_alone unwaiting (by rw [running]; nofun), if_pos room]
    dsimp only
    have untold : (s.dir.claims.map fun c => if c.slot = e.slot then { c with appeared := true } else c) = s.dir.claims := by
      rw [claims]
      rfl
    rw [answerAction_joined working, State.serveNext_rested (by exact alone), untold]
    rfl
  · rw [counted (.claim p) reading]
    show Host.Outcome.next (State.serveNext (s.claimRead p copy (.good (i, g)))) = _
    rw [claimRead_grants running found good unclaimed unqueued room claims powered (by rw [active]; nofun) dateless
      (by rw [active]; nofun) rich, (takeAnswer_abandoned (s := s.granting e p) (orders p) outstanding).1]
    have balance : (i.granted p s.today).balance = i.balance := rfl
    rw [balance, granted_settlement p s.today active rich, State.today_eq, State.handBack, State.offerSettlement,
      if_neg (by rw [show (s.granting e p).hasWaitingValue e.slot = false from unwaiting]; nofun),
      joinQueue_alone (by rfl) idle, State.serveNext_rested (by exact alone)]
    have entries : ((s.dir.entries.map fun d => if d.slot = e.slot then { d with claimedBy := some p } else d).map fun d =>
        if d.slot = e.slot then { d with claimedBy := none } else d) =
        s.dir.entries.map fun d => if d.slot = e.slot then { d with claimedBy := none } else d := by
      rw [List.map_map]
      refine List.map_congr_left fun d _ => ?_
      by_cases mine : d.slot = e.slot
      · rw [Function.comp_apply, if_pos mine, if_pos (show d.slot = e.slot from mine), if_pos mine]
      · rw [Function.comp_apply, if_neg mine]
    refine congrArg Host.Outcome.next ?_
    rw [← entries]
    rfl

end Sys2Proof.Machine
end

section
/-!
PROOFS. What a claim's reads lead to (O44).
-/

namespace Sys2Proof.Machine

/-! ### Lookups and queued images after a change -/

theorem lookup_onEntry {s : State} {x : Slot} {f : DirEntry → DirEntry} (same : ∀ d, (f d).serial = d.serial) (y : Serial) :
    (s.onEntry x f).lookup y = (s.lookup y).map fun d => if d.slot = x then f d else d := by
  have serial : ∀ d : DirEntry, (if d.slot = x then f d else d).serial = d.serial := fun d => by
    split
    · exact same d
    · rfl
  show ((s.dir.entries.map _).filter _).find? _ = (((s.dir.entries.filter _).find? _).map _)
  rw [List.filter_map, List.find?_map]
  have bucketed : (fun e : DirEntry => bucket e.serial == bucket y) ∘ (fun d => if d.slot = x then f d else d) =
      fun e => bucket e.serial == bucket y := funext fun d => congrArg (fun z => bucket z == bucket y) (serial d)
  have mine : (fun e : DirEntry => e.serial == y) ∘ (fun d => if d.slot = x then f d else d) = fun e => e.serial == y :=
    funext fun d => congrArg (· == y) (serial d)
  rw [bucketed, mine]

/-- A record found unreadable: a GOOD one is DAMAGED, and STORE FAULT names the slot (R146). -/
theorem foundUnreadable_eq (x : Slot) (s : State) : s.foundUnreadable x = State.raiseStoreFault x none { s with dir := { s.dir with
    entries := s.dir.entries.map fun d =>
      if d.slot = x ∧ d.condition = .good then { d with condition := .damaged } else d } } := by
  have entries : (s.dir.entries.map fun d => if d.slot = x then
      { d with condition := if d.condition = .good then .damaged else d.condition } else d) =
      s.dir.entries.map fun d => if d.slot = x ∧ d.condition = .good then { d with condition := .damaged } else d := by
    refine List.map_congr_left fun d _ => ?_
    by_cases mine : d.slot = x
    · by_cases good : d.condition = .good
      · rw [if_pos mine, if_pos good, if_pos ⟨mine, good⟩]
      · rw [if_pos mine, if_neg good, if_neg fun h => good h.2]
    · rw [if_neg mine, if_neg fun h => mine h.1]
  exact congrArg (fun es => State.raiseStoreFault x none { s with dir := { s.dir with entries := es } }) entries

theorem queuedImage_joined {s : State} {x : Slot} {i : Image} {origin : Origin} (absent : s.hasEntry x = false) :
    State.queuedImage { s with engine := { s.engine with
      waiting := s.engine.waiting ++ [{ work := .value i, slot := x, attempts := 0, origin := origin }] } } x = some i := by
  have none : s.engine.waiting.find? (fun e => e.image.isSome && e.slot == x) = .none := by
    refine List.find?_eq_none.2 fun e mem took => ?_
    have waits : s.hasEntry x = true :=
      Bool.or_eq_true_iff.2 (.inl (List.any_eq_true.2 ⟨e, mem, (Bool.and_eq_true_iff.1 took).2⟩))
    exact Bool.false_ne_true (absent.symm.trans waits)
  unfold State.queuedImage
  dsimp only
  rw [List.find?_append, none, Option.none_or, List.find?_cons_of_pos (by exact beq_self_eq_true x)]
  rfl

theorem hasWaitingValue_of_hasEntry {s : State} {x : Slot} (absent : s.hasEntry x = false) : s.hasWaitingValue x = false := by
  refine hasWaitingValue_absent fun w mem mine => ?_
  have waits : s.hasEntry x = true := Bool.or_eq_true_iff.2 (.inl (List.any_eq_true.2 ⟨w, mem, beq_iff_eq.2 mine⟩))
  exact Bool.false_ne_true (absent.symm.trans waits)

/-! ### A claim's reads -/

section
variable {s : State} {p : Pos} {c : FlightClaim}

theorem position_of_claimOf (claim : s.claimOf p = some c) : c.position = p :=
  beq_iff_eq.1 (List.find?_some (p := fun c : FlightClaim => c.position == p) claim)

/-- A claim in flight that is told of an entry of its record. -/
theorem claimOf_marked (claim : s.claimOf p = some c) :
    (s.dir.claims.map fun k => if k.slot = c.slot then { k with appeared := true } else k).find? (fun k => k.position == p) =
      some { c with appeared := true } := by
  have same : (fun k : FlightClaim => k.position == p) ∘ (fun k => if k.slot = c.slot then { k with appeared := true } else k) =
      fun k => k.position == p := funext fun k => by
    rw [Function.comp_apply]
    split <;> rfl
  rw [List.find?_map, same, show s.dir.claims.find? (fun k => k.position == p) = some c from claim, Option.map_some, if_pos rfl]

/-- A copy that a claim asks for joins the read list while a read is in flight (R130). -/
theorem requestRead_waits {r q : ReadRequest} (reading : s.engine.reading = some r) :
    s.requestRead q = { s with engine := { s.engine with readList := s.engine.readList ++ [q] } } := by
  unfold State.requestRead
  rw [reading]
  rfl

/-- A claim's first copy reads bad or blank (R32). -/
theorem claimRead_other {o : ReadOutcome (Image × Gen)} {r : ReadRequest} {copy : Copy} (claim : s.claimOf p = some c)
    (reading : s.engine.reading = some r) (bad : o.valid = none) (first : c.second = false) : s.claimRead p copy o = { s with
      dir := { s.dir with claims := s.dir.claims.map fun k => if k.position = p then { k with second := true } else k }
      engine := { s.engine with readList := s.engine.readList ++
        [{ who := .claim p, slot := c.slot, granule := copy.other.granule }] } } := by
  unfold State.claimRead
  rw [claim]
  dsimp only
  rw [bad]
  dsimp only
  rw [first, if_neg Bool.false_ne_true]
  exact requestRead_waits (s := s.onClaim p _) reading

/-- A claim's second copy reads bad or blank too (R32). -/
theorem claimRead_unreadable {o : ReadOutcome (Image × Gen)} {copy : Copy} (claim : s.claimOf p = some c)
    (bad : o.valid = none) (second : c.second = true) :
    s.claimRead p copy o = (s.foundUnreadable c.slot).resolveClaim p none := by
  unfold State.claimRead
  rw [claim]
  dsimp only
  rw [bad]
  exact if_pos second

/-- A claim's copy reads good (R32). -/
theorem claimRead_valid {copy : Copy} {i : Image} {g : Gen} (claim : s.claimOf p = some c) :
    s.claimRead p copy (.good (i, g)) =
      (if c.second then s.noteLive c.slot copy g else s).resolveClaim p (some i) := by
  unfold State.claimRead
  rw [claim]
  rfl

/-- A claim's first copy reads corrected: its refresh is offered first (R32, log 14). -/
theorem claimRead_corrected {copy : Copy} {i : Image} {g : Gen} (claim : s.claimOf p = some c) (first : c.second = false) :
    s.claimRead p copy (.corrected (i, g)) = (s.offerRefresh c.slot).resolveClaim p (some i) := by
  unfold State.claimRead
  rw [claim]
  show State.resolveClaim p (some i) (State.offerRefresh c.slot (if c.second then s.noteLive c.slot copy g else s)) = _
  rw [first]
  rfl

/-- An entry of the record has appeared and is gone: the live copy now noted is read (R33, log 13). -/
theorem resolveClaim_afresh {copy : Copy} {g : Gen} {r : ReadRequest} (claim : s.claimOf p = some c)
    (reading : s.engine.reading = some r) (unqueued : s.queuedImage c.slot = none) (appeared : c.appeared = true)
    (live : (s.bySlot c.slot).bind DirEntry.live = some (copy, g)) (image : Option Image) : s.resolveClaim p image = { s with
      dir := { s.dir with claims := s.dir.claims.map fun k =>
        if k.position = p then { k with second := false, appeared := false } else k }
      engine := { s.engine with readList := s.engine.readList ++
        [{ who := .claim p, slot := c.slot, granule := copy.granule }] } } := by
  unfold State.resolveClaim
  rw [claim]
  dsimp only
  rw [unqueued, appeared, live]
  exact requestRead_waits (s := s.onClaim p _) reading

/-- What the refresh of a live copy that read corrected leaves, no entry of the record in the queue (R145). -/
theorem offerRefresh_joins {x : Slot} {e : DirEntry} {copy : Copy} {i : Image} {g : Gen} (found : s.bySlot x = some e)
    (issued : e.condition ≠ .issuing) (live : e.live = some (copy, g))
    (read : readValue ((s.record x).copy copy) = .corrected (i, g)) (absent : s.hasEntry x = false)
    (running : s.port.mode ≠ .draining) (idle : ∀ a, s.port.result = .working a → a.slot ≠ x)
    (room : s.engine.waiting.length + 1 + s.unqueuedClaims + 1 ≤ 96) : s.offerRefresh x = { s with
      dir := { s.dir with
        claims := s.dir.claims.map fun k => if k.slot = x then { k with appeared := true } else k }
      engine := { s.engine with waiting := s.engine.waiting ++
        [{ work := .value i, slot := x, attempts := 0, origin := .refresh }] } } := by
  have unwaiting := hasWaitingValue_of_hasEntry absent
  have stored : s.storedImage x = some i := by
    unfold State.storedImage
    rw [found]
    dsimp only
    rw [live]
    dsimp only
    rw [read]
    rfl
  rw [offerRefresh_offered ⟨running, e, found, issued⟩, if_neg (by rw [unwaiting]; nofun), if_neg (by rw [absent]; nofun), stored]
  dsimp only
  rw [offerValue_alone unwaiting running, if_pos room, Option.getD_some, State.joinQueue,
    markAppeared_idle (s := s.onEngine _) idle]
  rfl

end

/-! ### The claims held behind a claim (R34) -/

theorem retryHeld_next (s : State) (x : Serial) (q : Pos) (rest : List Pos) :
    ((s.claimArrives x q).2 = some true → s.retryHeld x (q :: rest) = (s.claimArrives x q).1.answerInUse rest) ∧
    ((s.claimArrives x q).2 = some false → s.retryHeld x (q :: rest) = (s.claimArrives x q).1.retryHeld x rest) ∧
    ((s.claimArrives x q).2 = none → s.retryHeld x (q :: rest) = (s.claimArrives x q).1.holdBehind x rest) := by
  cases arrives : s.claimArrives x q with
  | mk t answer =>
    refine ⟨?_, ?_, ?_⟩
    all_goals
      rintro rfl
      rw [State.retryHeld, arrives]

/-! ### O44 -/

/-- A claim answered, and the claims held behind it. -/
theorem finishClaim_eq {p : Pos} {c d : FlightClaim} (position : d.position = p) (serial : d.serial = c.serial)
    (held : d.held = c.held) (t : State) (image : Option Image) : t.finishClaim d image =
      (let u : State := { t with dir := { t.dir with claims := t.dir.claims.filter fun k => k.position != p } }
       let r := u.completeClaim c.serial p image
       let v := r.1.takeAnswer p r.2
       if r.2.isAccepted then c.held.foldl (fun w q => w.takeAnswer q (.refused .inUse)) v
       else v.retryHeld c.serial c.held) := by
  rw [← position, ← serial, ← held]
  rfl

/-- A record found unreadable refuses the claim FAULT (R33). -/
theorem completeClaim_unreadable {s : State} {x : Serial} {y : Slot} {e : DirEntry} (p : Pos) (found : s.lookup x = some e)
    (slot : e.slot = y) (issued : e.condition ≠ .issuing) (claims : List FlightClaim) :
    State.completeClaim x p none { s.foundUnreadable y with dir := { (s.foundUnreadable y).dir with claims := claims } } =
      ({ s.foundUnreadable y with dir := { (s.foundUnreadable y).dir with claims := claims } }, .refused .fault) := by
  have there := (lookup_onEntry (s := s) (x := y)
    (f := fun e => { e with condition := if e.condition = .good then .damaged else e.condition }) (fun _ => rfl) x).trans
      (congrArg _ found)
  rw [Option.map_some, if_pos slot] at there
  unfold State.completeClaim
  rw [show State.lookup { s.foundUnreadable y with dir := { (s.foundUnreadable y).dir with claims := claims } } x = _ from there]
  dsimp only
  cases condition : e.condition with
  | issuing => exact absurd condition issued
  | good => rfl
  | damaged => rfl
  | worn => rfl

/-- Settles O44. -/
theorem claimReadsFallBackAndFollow : Obligations.ClaimReadsFallBackAndFollow := by
  refine ⟨?_, fun s x q rest => ⟨rfl, ?_⟩⟩
  · intro s p c e copy released wf claim found indexed issued reading o served asks completes ends
    have position := position_of_claimOf claim
    have slot : e.slot = c.slot := beq_iff_eq.1 (List.find?_some (p := fun e : DirEntry => e.slot == c.slot) indexed)
    have next (weak : Bool) (is : o.isCorrected = weak) : exec (.storeReadComplete .asHeld) s =
        .next (served ((s.countCorrected weak).claimRead p copy o)) := by
      have completed := readComplete_value released wf reading
      rw [is, State.serveNext_eq] at completed
      exact completed
    have uncounted {t : State} (plain : o.isCorrected = false) (read : s.claimRead p copy o = t) :
        exec (.storeReadComplete .asHeld) s = .next (served t) :=
      (next false plain).trans (congrArg (fun t => Host.Outcome.next (served t)) read)
    have ended (t : State) (d : FlightClaim) (image : Option Image) (there : d.position = p) (serial : d.serial = c.serial)
        (held : d.held = c.held) (h : exec (.storeReadComplete .asHeld) s = .next (served (t.finishClaim d image))) :
        ends t image := by
      rw [finishClaim_eq there serial held] at h
      exact h
    refine ⟨fun bad first => ?_, fun bad second => ?_, fun i g good => ?_,
      fun i g corrected first live absent running idle room => ?_⟩
    · exact uncounted (ReadOutcome.isCorrected_of_valid bad) (claimRead_other claim reading bad first)
    · have read := uncounted (ReadOutcome.isCorrected_of_valid bad) (claimRead_unreadable claim bad second)
      refine ⟨fun unqueued still => ?_, fun j queued => ?_⟩
      · rw [resolveClaim_read (s := s.foundUnreadable c.slot) claim unqueued still] at read
        refine ⟨ended _ c none position rfl rfl (by rw [← foundUnreadable_eq]; exact read), fun alone => ?_⟩
        rw [← foundUnreadable_eq]
        refine read.trans (congrArg (fun t => Host.Outcome.next (served t)) ?_)
        rw [finishClaim_eq (c := c) position rfl rfl]
        dsimp only
        rw [completeClaim_unreadable p found slot issued, alone]
        rfl
      · rw [resolveClaim_queued (s := s.foundUnreadable c.slot) claim queued] at read
        exact ended _ c _ position rfl rfl (by rw [← foundUnreadable_eq]; exact read)
    · have read := uncounted (by rw [good]; rfl)
        ((congrArg (fun o => s.claimRead p copy o) good).trans (claimRead_valid (copy := copy) claim))
      intro t
      have claim' : t.claimOf p = some c := by
        show State.claimOf (if c.second then _ else s) p = _
        split <;> exact claim
      have queue : t.queuedImage c.slot = s.queuedImage c.slot := by
        show State.queuedImage (if c.second then _ else s) _ = _
        split <;> rfl
      have busy : t.engine.reading = some { who := .claim p, slot := c.slot, granule := copy.granule } := by
        show (if c.second then _ else s : State).engine.reading = _
        split <;> exact reading
      have noted : (t.bySlot c.slot).bind DirEntry.live = if c.second then some (copy, g) else e.live := by
        show (State.bySlot (if c.second then s.noteLive c.slot copy g else s) c.slot).bind DirEntry.live = _
        split
        · rw [bySlot_noteLive indexed]
          rfl
        · rw [indexed]
          rfl
      refine ⟨fun unqueued still => ended t c _ position rfl rfl (read.trans ?_),
        fun j queued => ended t c _ position rfl rfl (read.trans ?_), fun copy' g' unqueued appeared live => read.trans ?_⟩
      · exact congrArg (fun t => Host.Outcome.next (served t)) (resolveClaim_read claim' (queue.trans unqueued) still _)
      · exact congrArg (fun t => Host.Outcome.next (served t)) (resolveClaim_queued claim' (queue.trans queued) _)
      · exact congrArg (fun t => Host.Outcome.next (served t))
          (resolveClaim_afresh claim' busy (queue.trans unqueued) appeared (noted.trans live) _)
    · have read := next true (by rw [corrected]; rfl)
      have joins := offerRefresh_joins (s := s.countCorrected true) indexed issued live corrected absent running idle room
      rw [corrected, claimRead_corrected (s := s.countCorrected true) claim first] at read
      generalize (s.countCorrected true).offerRefresh c.slot = t at read joins
      have marked : t.claimOf p = some { c with appeared := true } := by
        rw [joins]
        exact claimOf_marked claim
      have queued : t.queuedImage c.slot = some i := by
        rw [joins]
        exact queuedImage_joined (s := s.countCorrected true) absent
      rw [resolveClaim_queued marked queued, joins] at read
      exact ended _ { c with appeared := true } _ position rfl rfl read
  · obtain ⟨accepted, refused, waits⟩ := retryHeld_next s x q rest
    exact ⟨accepted, refused, fun none => ⟨_, rfl, waits none⟩⟩

end Sys2Proof.Machine
end

section
/-!
PROOFS. A working action with what its reads have given (O45).
-/

namespace Sys2Proof.Machine

/-! ### The action that works -/

/-- The part waits for a read of the host action `a`, whose record's entry is `e`, and a read is in flight. -/
structure State.attends (s : State) (a : HostAction) (e : DirEntry) : Prop where
  working : s.port.result = .working a
  found : s.lookup a.serial = some e
  slot : a.slot = e.slot
  issued : e.condition ≠ .issuing
  busy : s.engine.reading ≠ none

/-- Whether an action is a query. -/
def ActionKind.isQuery (kind : ActionKind) : Prop := kind = .queryCard ∨ kind = .querySlot

/-- An action has been answered, the answer unsent (R151, R156). -/
def State.answersFor (s : State) (kind : ActionKind) (code : ReplyCode) (data : Word) : State := { s with port := { s.port with
  latch := if kind.isLatched then false else s.port.latch, result := .unsent, reply := { code := code, data := data } } }

/-- An action goes on working, as `b`, and asks for a granule behind the read in flight. -/
def State.asksFor (s : State) (b : HostAction) (granule : GranuleName) : State := { s with
  port := { s.port with reply := { code := .noReply, data := 1 }, result := .working b }
  engine := { s.engine with readList := s.engine.readList ++ [{ who := .host, slot := b.slot, granule := granule }] } }

/-- A query has been answered with its words. -/
def State.showsFor (s : State) (kind : ActionKind) (e : DirEntry) (identity : Option Identity) (image : Option Image) : State :=
  State.answersFor { s with port := { s.port with
    pointer := 0
    buffer := (if kind = .querySlot then [BitVec.ofNat 16 (32768 + e.slot.val)] else []) ++ e.words identity image } }
    kind .ok (if kind = .querySlot then 525 else 12)

/-- What an action's read has given, an entry of the record having appeared or not (R159). -/
def HostAction.read (a : HostAction) (image : Option Image) : ActionRead :=
  match image with
  | none => .unreadable
  | some i => if a.appeared then .needed else .image i

theorem serial_of_lookup {s : State} {x : Serial} {e : DirEntry} (found : s.lookup x = some e) : e.serial = x :=
  beq_iff_eq.1 (List.find?_some (p := fun e : DirEntry => e.serial == x) found)

namespace State.attends
variable {s : State} {a : HostAction} {e : DirEntry}

theorem counted (h : s.attends a e) (corrected : Bool) : (s.countCorrected corrected).attends a e := by
  obtain ⟨working, found, slot, issued, busy⟩ := h
  refine ⟨working, found, slot, issued, ?_⟩
  cases corrected <;> exact busy

/-- The record's entry has changed, its serial and slot aside. -/
theorem onEntry (h : s.attends a e) {f : DirEntry → DirEntry} (serial : ∀ d, (f d).serial = d.serial)
    (slot : (f e).slot = e.slot) (issued : (f e).condition ≠ .issuing) : (s.onEntry a.slot f).attends a (f e) := by
  refine ⟨h.working, ?_, h.slot.trans slot.symm, issued, h.busy⟩
  rw [lookup_onEntry serial, h.found, Option.map_some, if_pos h.slot.symm]

theorem noteLive (h : s.attends a e) (copy : Copy) (g : Gen) :
    (s.noteLive a.slot copy g).attends a { e with live := some (copy, g) } :=
  h.onEntry (f := fun e => { e with live := some (copy, g) }) (fun _ => rfl) rfl h.issued

theorem foundUnreadable (h : s.attends a e) :
    (s.foundUnreadable a.slot).attends a { e with condition := if e.condition = .good then .damaged else e.condition } := by
  have issued : (if e.condition = .good then Condition.damaged else e.condition) ≠ .issuing := by
    split
    · nofun
    · exact h.issued
  obtain ⟨working, found, slot, issued, busy⟩ := h.onEntry
    (f := fun e => { e with condition := if e.condition = .good then .damaged else e.condition }) (fun _ => rfl) rfl issued
  exact ⟨working, found, slot, issued, busy⟩

theorem answer (h : s.attends a e) (kind : ActionKind) (code : ReplyCode) (data : Word) :
    s.answerAction kind code data = s.answersFor kind code data := answerAction_working h.working kind code data

theorem await (h : s.attends a e) (b : HostAction) (granule : GranuleName) : s.await b granule = s.asksFor b granule := by
  obtain ⟨r, reading⟩ := Option.ne_none_iff_exists'.1 h.busy
  exact requestRead_waits (s := (s.answer .noReply 1).onPort fun p => { p with result := .working b }) reading

/-! ### Queries -/

theorem finishQuery (h : s.attends a e) {kind : ActionKind} (d : DirEntry) (identity : Option Identity) (image : Option Image) :
    s.finishQuery kind d identity image = s.showsFor kind d identity image := by
  unfold State.finishQuery State.showsFor
  by_cases slot : kind = .querySlot
  · rw [if_pos slot, if_pos slot, if_pos slot, slotWord_eq]
    exact answerAction_working (s := s.load _) (a := a) h.working kind .ok _
  · rw [if_neg slot, if_neg slot, if_neg slot]
    exact answerAction_working (s := s.load _) (a := a) h.working kind .ok 12

theorem query_queued (h : s.attends a e) {d : DirEntry} {i : Image} (queued : s.queuedImage d.slot = some i) (kind : ActionKind)
    (identity : Option Identity) : s.queryValue kind d identity = s.showsFor kind d identity (some i) := by
  unfold State.queryValue
  rw [queued]
  exact h.finishQuery d identity (some i)

theorem query_absent (h : s.attends a e) {d : DirEntry} (unqueued : s.queuedImage d.slot = none) (dead : d.live = none)
    (kind : ActionKind) (identity : Option Identity) : s.queryValue kind d identity = s.showsFor kind d identity none := by
  unfold State.queryValue
  rw [unqueued, dead]
  exact h.finishQuery d identity none

theorem query_reads (h : s.attends a e) {copy : Copy} {g : Gen} (unqueued : s.queuedImage e.slot = none)
    (live : e.live = some (copy, g)) (identity : Option Identity) : s.queryValue a.kind e identity =
      s.asksFor { a with stage := .live identity, appeared := false } copy.granule := by
  unfold State.queryValue
  rw [unqueued, live]
  dsimp only
  rw [h.await, serial_of_lookup h.found, ← h.slot]

/-- A query whose value copies have been read (R166). -/
theorem resolved_query (h : s.attends a e) (query : a.kind.isQuery) (identity : Option Identity) (image : Option Image) :
    s.actionResolved a identity image =
      if a.appeared = true ∨ (s.queuedImage a.slot).isSome then s.queryValue a.kind e identity
      else s.finishQuery a.kind e identity image := by
  unfold State.actionResolved
  rw [h.found]
  dsimp only
  obtain kind | kind := query <;> rw [kind]

/-- What a query shows of its image, and when it reads the live copy afresh (R31, R166, log 13). -/
theorem query_resolves (h : s.attends a e) (query : a.kind.isQuery) (identity : Option Identity) (image : Option Image) :
    (∀ i, s.queuedImage e.slot = some i → s.actionResolved a identity image = s.showsFor a.kind e identity (some i)) ∧
    (s.queuedImage e.slot = none → a.appeared = false → s.actionResolved a identity image = s.showsFor a.kind e identity image) ∧
    (s.queuedImage e.slot = none → a.appeared = true → e.live = none →
      s.actionResolved a identity image = s.showsFor a.kind e identity none) ∧
    ∀ copy g, s.queuedImage e.slot = none → a.appeared = true → e.live = some (copy, g) → s.actionResolved a identity image =
      s.asksFor { a with stage := .live identity, appeared := false } copy.granule := by
  have resolved := h.resolved_query query identity image
  rw [h.slot] at resolved
  refine ⟨fun i queued => ?_, fun unqueued still => ?_, fun unqueued appeared dead => ?_, fun copy g unqueued appeared live => ?_⟩
  · rw [resolved, if_pos (.inr (Option.isSome_of_eq_some queued)), h.query_queued queued]
  · rw [resolved, if_neg (by rw [still, unqueued]; rintro (n | n) <;> nomatch n), h.finishQuery]
  · rw [resolved, if_pos (.inl appeared), h.query_absent unqueued dead]
  · rw [resolved, if_pos (.inl appeared), h.query_reads unqueued live]

/-! ### Actions -/

theorem resolved_action (h : s.attends a e) (action : ¬a.kind.isQuery) (identity : Option Identity) (image : Option Image) :
    s.actionResolved a identity image = s.fromStepSix a.kind e (a.read image) := by
  unfold State.actionResolved
  rw [h.found]
  dsimp only
  split
  · next kind => exact absurd (.inl kind) action
  · next kind => exact absurd (.inr kind) action
  · rfl

theorem image_read (h : s.attends a e) (free : a.kind = .credit ∨ a.kind = .setExpiry → s.inUse e = false)
    (unclaimed : a.kind = .block → e.claimedBy = none) (live : e.live ≠ none) (unqueued : s.queuedImage e.slot = none) (i : Image) :
    s.fromStepSix a.kind e (.image i) = s.applyAction a.kind e.slot i := by
  obtain ⟨l, there⟩ := Option.ne_none_iff_exists'.1 live
  rw [fromStepSix_passed free unclaimed, if_neg h.issued, there]
  dsimp only
  rw [if_neg (show ActionRead.image i ≠ .unreadable from nofun), unqueued]

/-- A CREDIT or SET EXPIRY that meets a claim (R158). -/
theorem taken (h : s.attends a e) (kind : a.kind = .credit ∨ a.kind = .setExpiry)
    (used : e.claimedBy ≠ none ∨ ∃ c ∈ s.dir.claims, c.serial = e.serial) (identity : Option Identity) (image : Option Image) :
    s.actionResolved a identity image = s.answersFor a.kind .inUse 0 := by
  have action : ¬a.kind.isQuery := by
    obtain kind | kind := kind <;> rw [kind] <;> rintro (n | n) <;> nomatch n
  rw [h.resolved_action action, fromStepSix_inUse kind ((State.inUse_iff e).2 used), h.answer]

/-- An action of which both copies read bad or blank (R146). -/
theorem unreadable (h : s.attends a e) (free : a.kind = .credit ∨ a.kind = .setExpiry → s.inUse e = false)
    (unclaimed : a.kind = .block → e.claimedBy = none) :
    s.fromStepSix a.kind e .unreadable = s.answersFor a.kind .badState 0 := by
  rw [fromStepSix_passed free unclaimed, if_neg h.issued]
  split
  · exact h.answer a.kind .badState 0
  · exact (if_pos rfl).trans (h.answer a.kind .badState 0)

/-- An action that finds its image: the queue's, or the one read where no entry has appeared (R159). -/
theorem finds (h : s.attends a e) (action : ¬a.kind.isQuery) (free : a.kind = .credit ∨ a.kind = .setExpiry → s.inUse e = false)
    (unclaimed : a.kind = .block → e.claimedBy = none) (live : e.live ≠ none) {i image : Image}
    (newest : s.queuedImage e.slot = some image ∨ s.queuedImage e.slot = none ∧ a.appeared = false ∧ image = i)
    (identity : Option Identity) : s.actionResolved a identity (some i) = s.applyAction a.kind e.slot image := by
  rw [h.resolved_action action]
  obtain queued | ⟨unqueued, still, rfl⟩ := newest
  · refine fromStepSix_queued free unclaimed h.issued live ?_ queued
    show (if a.appeared then ActionRead.needed else .image i) ≠ .unreadable
    split <;> nofun
  · have read : a.read (some image) = .image image := if_neg (by rw [still]; nofun)
    rw [read, h.image_read free unclaimed live unqueued]

/-- An action whose record has had an entry since reads the live copy afresh (log 13). -/
theorem afresh (h : s.attends a e) (action : ¬a.kind.isQuery) (free : a.kind = .credit ∨ a.kind = .setExpiry → s.inUse e = false)
    (unclaimed : a.kind = .block → e.claimedBy = none) {copy : Copy} {g : Gen} (live : e.live = some (copy, g))
    (unqueued : s.queuedImage e.slot = none) (appeared : a.appeared = true) (i : Image) (identity : Option Identity) :
    s.actionResolved a identity (some i) = s.asksFor { a with stage := .live none, appeared := false } copy.granule := by
  have needed : a.read (some i) = .needed := if_pos appeared
  rw [h.resolved_action action, needed, fromStepSix_reads free unclaimed h.issued live unqueued, h.await,
    serial_of_lookup h.found, ← h.slot]

/-- A BLOCK that finds the card claimed (R110). -/
theorem through (h : s.attends a e) (block : a.kind = .block) {p : Pos} (claimed : e.claimedBy = some p)
    (identity : Option Identity) (image : Option Image) :
    s.actionResolved a identity image = (s.blockThrough p).answerAction a.kind .ok 3 := by
  rw [h.resolved_action (by rw [block]; rintro (h | h) <;> nomatch h), block]
  unfold State.fromStepSix
  rw [if_neg (by rintro ⟨h | h, -⟩ <;> nomatch h), if_pos rfl, claimed]
  rfl

/-- An action's image is offered, and the action answered (R134 to R136, R151). -/
theorem offers (h : s.attends a e) (running : s.port.mode = .running) {i image : Image} {data : Word}
    (build : a.kind.build s.port.staging i = .queue image data) (x : Slot) :
    (s.hasWaitingValue x = true → s.applyAction a.kind x i = State.answersFor { s with engine := { s.engine with
      waiting := s.engine.waiting.map fun w =>
        if w.isValue = true ∧ w.slot = x then { w with work := .value image, origin := .host } else w } } a.kind .ok data) ∧
    (s.hasWaitingValue x = false → s.engine.waiting.length + 1 + s.unqueuedClaims + 1 ≤ 96 →
      s.applyAction a.kind x i = State.answersFor { s with
        dir := { s.dir with claims := s.dir.claims.map fun c => if c.slot = x then { c with appeared := true } else c }
        engine := { s.engine with waiting := s.engine.waiting ++
          [{ work := .value image, slot := x, attempts := 0, origin := .host }] } } a.kind .ok data) ∧
    (s.hasWaitingValue x = false → 96 < s.engine.waiting.length + 1 + s.unqueuedClaims + 1 →
      s.applyAction a.kind x i = s.answersFor a.kind .queueFull 0) := by
  unfold State.applyAction
  rw [build]
  dsimp only
  refine ⟨fun waits => ?_, fun unwaiting fits => ?_, fun unwaiting full => ?_⟩
  · have coalesces : s.offerValue x image .host = some (s.coalesce x image .host) := if_pos waits
    rw [coalesces]
    exact answerAction_working (s := s.coalesce x image .host) h.working a.kind .ok data
  · rw [offerValue_alone unwaiting (by rw [running]; nofun), if_pos fits]
    exact answerAction_joined h.working _ a.kind .ok data
  · rw [offerValue_alone unwaiting (by rw [running]; nofun), if_neg (not_le.2 full)]
    exact h.answer a.kind .queueFull 0

/-- An action that queues nothing is answered (R162, R163). -/
theorem builds (h : s.attends a e) {i : Image} {code : ReplyCode} {data : Word}
    (build : a.kind.build s.port.staging i = .answer code data) (x : Slot) :
    s.applyAction a.kind x i = s.answersFor a.kind code data := by
  unfold State.applyAction
  rw [build]
  exact h.answer a.kind code data

end State.attends

end Sys2Proof.Machine
end

section
/-!
PROOFS. The reads of the host actions complete (O45).
-/

namespace Sys2Proof.Machine

/-! ### The reads of a working action -/

/-- A record's entry once a read has found the record unreadable (R21). -/
def DirEntry.faulted (e : DirEntry) : DirEntry := { e with condition := if e.condition = .good then .damaged else e.condition }

theorem readComplete_identity {s : State} {who : Requester} {x : Slot} (h : s.pins.released = true)
    (wf : storeWf s.store = true) (reading : s.engine.reading = some { who := who, slot := x, granule := .identity }) :
    exec (.storeReadComplete .asHeld) s = .next (((s.countCorrected (readIdentity (s.record x).identity).isCorrected).identityRead
      { who := who, slot := x, granule := .identity } (readIdentity (s.record x).identity)).serveNext) := by
  rw [readComplete_busy h wf reading]
  rfl

namespace State.attends
variable {s : State} {a : HostAction} {e : DirEntry}

theorem identity_read (h : s.attends a e) (o : ReadOutcome Identity) :
    (o.valid = none → s.actionIdentity o = (s.foundUnreadable a.slot).queryValue a.kind e.faulted none) ∧
    (o.valid ≠ none → s.actionIdentity o = s.queryValue a.kind e o.valid) := by
  refine ⟨fun bad => ?_, fun valid => ?_⟩
  · unfold State.actionIdentity
    rw [h.working]
    dsimp only
    rw [bad, if_pos (show (none : Option Identity).isNone = true from rfl), h.foundUnreadable.found]
    rfl
  · unfold State.actionIdentity
    rw [h.working]
    dsimp only
    rw [if_neg fun none => valid (Option.isNone_iff_eq_none.1 none), h.found]

variable {o : ReadOutcome (Image × Gen)} {identity : Option Identity} {copy : Copy}

theorem other_asked (h : s.attends a e) (stage : a.stage = .live identity) (bad : o.valid = none) :
    s.actionValue copy o = s.asksFor { a with stage := .other identity } copy.other.granule := by
  unfold State.actionValue
  rw [h.working]
  dsimp only
  rw [stage, bad]
  exact h.await _ _

theorem both_bad (h : s.attends a e) (stage : a.stage = .other identity) (bad : o.valid = none) :
    s.actionValue copy o = (s.foundUnreadable a.slot).actionResolved a identity none := by
  unfold State.actionValue
  rw [h.working]
  dsimp only
  rw [stage, bad]
  rfl

theorem copy_read (h : s.attends a e) {i : Image} {g : Gen} (stage : a.stage = .live identity ∨ a.stage = .other identity) :
    s.actionValue copy (.good (i, g)) =
      (if a.stage = .other identity then s.noteLive a.slot copy g else s).actionResolved a identity (some i) := by
  unfold State.actionValue
  rw [h.working]
  dsimp only
  obtain stage | stage := stage
  · rw [stage, if_neg nofun]
    rfl
  · rw [stage, if_pos rfl]
    rfl

end State.attends

/-- The part `t` as a valid copy has been read for the action: the note has moved to it, or stands, and the record's
entry is now `d`. -/
structure State.noted (s : State) (a : HostAction) (e : DirEntry) (t : State) (d : DirEntry) : Prop where
  attends : t.attends a d
  live : d.live ≠ none
  slot : d.slot = e.slot
  serial : d.serial = e.serial
  claimed : d.claimedBy = e.claimedBy
  claims : t.dir.claims = s.dir.claims
  positions : t.positions = s.positions
  port : t.port = s.port
  engine : t.engine = s.engine
  unqueued : t.unqueuedClaims = s.unqueuedClaims

namespace State.noted
variable {s t : State} {a : HostAction} {e d : DirEntry}

theorem stands (h : s.attends a e) (live : e.live ≠ none) : s.noted a e s e :=
  ⟨h, live, rfl, rfl, rfl, rfl, rfl, rfl, rfl, rfl⟩

theorem moves (h : s.attends a e) (copy : Copy) (g : Gen) :
    s.noted a e (s.noteLive a.slot copy g) { e with live := some (copy, g) } :=
  ⟨h.noteLive copy g, nofun, rfl, rfl, rfl, rfl, rfl, rfl, rfl, unqueuedClaims_noteLive _ _ _ _⟩

theorem queuedImage (h : s.noted a e t d) : t.queuedImage d.slot = s.queuedImage e.slot := by
  unfold State.queuedImage State.inFlight
  rw [h.engine, h.slot]

theorem hasWaitingValue (h : s.noted a e t d) : t.hasWaitingValue d.slot = s.hasWaitingValue e.slot := by
  unfold State.hasWaitingValue
  rw [h.engine, h.slot]

end State.noted

/-! ### BLOCK through the position -/

theorem Position.enterCut_uncandidated {d : Position} (none : d.candidate = .none) (v : Verdict) :
    d.enterCut v = { d with state := .cut, call := .none, order := .plain v 0 } := by
  unfold Position.enterCut
  dsimp only
  rw [none, ite_self]
  rfl

/-- What a position shows once the host has blocked its card (R110). -/
theorem Position.blockedOf_settled (k : Claim) {c : Position} (card : c.state ∈ [PosState.held, .metered, .grace, .cut]) :
    (c.blockedOf k).settled = { c.emptied with
      candidate := none, refusedSerial := some k.serial, refusedVerdict := .refusedBlocked, refusedBalance := 0
      state := if c.state = .held then .refused else .cut, call := if c.state = .held then c.call else none
      order := .plain (if c.state = .held then .refusedBlocked else .cutBlocked) 0 } := by
  unfold Position.blockedOf
  simp only [List.mem_cons, List.not_mem_nil, or_false] at card
  obtain state | state | state | state := card
  · rw [state]
    rfl
  all_goals
    rw [state]
    refine (congrArg Position.settled (Position.enterCut_uncandidated (by rfl) .cutBlocked)).trans ?_
    rfl

/-- A card blocked through its position, and the action answered (R110). -/
theorem State.attends.blocks {s t : State} {a : HostAction} {e : DirEntry} (h : t.attends a e) {p : Pos} {k : Claim}
    (same : t.positions = s.positions) (held : (s.ctx p).claim = some k)
    (card : (s.ctx p).state ∈ [PosState.held, .metered, .grace, .cut]) (kind : ActionKind) :
    ∃ u, (t.blockThrough p).answerAction kind .ok 3 = u.answersFor kind .ok 3 ∧ t.onlySettles u [k.slot] ∧
      u.attention = t.attention ∧ u.lines = t.lines ∧ t.port.onlyMarked u.port ∧ u.free k.slot ∧
      u.queues k.slot { k.image with balance := (s.ctx p).working, state := .blocked } ∧
      u.positions = (s.withCtx p { (s.ctx p).emptied with
        candidate := none, refusedSerial := some k.serial, refusedVerdict := .refusedBlocked, refusedBalance := 0
        state := if (s.ctx p).state = .held then .refused else .cut
        call := if (s.ctx p).state = .held then (s.ctx p).call else none
        order := .plain (if (s.ctx p).state = .held then .refusedBlocked else .cutBlocked) 0 }).positions := by
  have ctx : t.ctx p = s.ctx p := State.ctx_of_positions same p
  have through := blockThrough_eq (s := t) (p := p) (k := k) (by rw [ctx]; exact held)
  rw [ctx, Position.blockedOf_settled k card] at through
  obtain ⟨only, lines, port, attention, positions, queues, free⟩ := handBack_leaves k.slot
    (k.settlement (s.ctx p).working true) t p { (s.ctx p).emptied with
      candidate := none, refusedSerial := some k.serial, refusedVerdict := .refusedBlocked, refusedBalance := 0
      state := if (s.ctx p).state = .held then .refused else .cut
      call := if (s.ctx p).state = .held then (s.ctx p).call else none
      order := .plain (if (s.ctx p).state = .held then .refusedBlocked else .cutBlocked) 0 }
  rw [← through] at only lines port attention positions queues free
  have working : ∃ b, (t.blockThrough p).port.result = .working b := by
    obtain ⟨-, kept | ⟨b, -, marked⟩⟩ := port
    · exact ⟨a, kept.trans h.working⟩
    · exact ⟨_, marked⟩
  obtain ⟨b, working⟩ := working
  refine ⟨_, answerAction_working working kind .ok 3, only, attention, lines, port, free, queues, positions.trans ?_⟩
  exact congrArg (fun v : Vector Position 48 => v.set p.val _ p.isLt) same

/-! ### O45 -/

theorem ActionKind.isLatched_query {kind : ActionKind} (query : kind.isQuery) : kind.isLatched = false := by
  obtain rfl | rfl := query <;> rfl

theorem ActionKind.isLatched_action {kind : ActionKind} (action : ¬kind.isQuery) : kind.isLatched = true := by
  cases kind with
  | queryCard => exact absurd (.inl rfl) action
  | querySlot => exact absurd (.inr rfl) action
  | credit => rfl
  | setExpiry => rfl
  | block => rfl
  | unblock => rfl

/-- Settles O45. -/
theorem hostReadsComplete : Obligations.HostReadsComplete := by
  intro s e a released wf running working found slot once issued query served becomes asks reads answers damage damaged
    shows through
  have attends (busy : s.engine.reading ≠ none) : s.attends a e := ⟨working, found, slot, issued, busy⟩
  have reply (t : State) (code : ReplyCode) (data : Word) : t.answersFor a.kind code data = answers t code data := by
    have latch : (if a.kind.isLatched then false else t.port.latch) = if query then t.port.latch else false := by
      by_cases q : query
      · rw [if_pos q, ActionKind.isLatched_query q]
        rfl
      · rw [if_neg q, ActionKind.isLatched_action q]
        rfl
    unfold State.answersFor
    rw [latch]
  have shown (t : State) (d : DirEntry) (identity : Option Identity) (image : Option Image)
      (same : d.slot = e.slot) : t.showsFor a.kind d identity image = shows t d identity image := by
    unfold State.showsFor
    rw [same]
    exact reply { t with port := { t.port with
      pointer := 0
      buffer := (if a.kind = .querySlot then [BitVec.ofNat 16 (32768 + e.slot.val)] else []) ++ d.words identity image } }
      .ok (if a.kind = .querySlot then 525 else 12)
  have asked (t : State) (b : HostAction) (copy : Copy) (same : b.slot = a.slot) :
      t.asksFor b copy.granule = asks t b copy := by
    unfold State.asksFor
    rw [same, slot]
  have hurt (t : State) : t.foundUnreadable a.slot = damage t := by
    rw [slot]
    exact foundUnreadable_eq _ _
  refine ⟨fun reading isQuery stage => ?_, fun copy identity reading => ?_⟩
  · intro o t u d
    have read := readComplete_identity released wf reading
    rw [State.serveNext_eq] at read
    obtain ⟨v, counted⟩ : ∃ v, v = s.countCorrected o.isCorrected := ⟨_, rfl⟩
    have same : v = t := by
      rw [counted]
      show s.countCorrected o.isCorrected = { s with engine := { s.engine with
        corrected := if o.isCorrected then min 65535 (s.engine.corrected + 1) else s.engine.corrected } }
      cases o.isCorrected <;> rfl
    have here : v.attends a e := counted ▸ (attends (by rw [reading]; nofun)).counted _
    have value : ∃ w, w.attends a d ∧ w = u ∧ becomes (w.queryValue a.kind d o.valid) := by
      obtain ⟨faulty, sound⟩ := here.identity_read o
      by_cases bad : o.valid = none
      · refine ⟨v.foundUnreadable a.slot, ?_, ?_, ?_⟩
        · rw [show d = damaged from if_pos bad]
          exact here.foundUnreadable
        · rw [hurt, same]
          exact (if_pos bad).symm
        · rw [show d = damaged from if_pos bad, bad]
          exact read.trans (congrArg (fun t => Host.Outcome.next (served t)) (by rw [← counted]; exact faulty bad))
      · refine ⟨v, ?_, ?_, ?_⟩
        · rw [show d = e from if_neg bad]
          exact here
        · rw [same]
          exact (if_neg bad).symm
        · rw [show d = e from if_neg bad]
          exact read.trans (congrArg (fun t => Host.Outcome.next (served t)) (by rw [← counted]; exact sound bad))
    obtain ⟨w, there, left, next⟩ := value
    have at' : d.slot = e.slot := by
      show (if o.valid = none then damaged else e).slot = e.slot
      split <;> rfl
    have queue : w.queuedImage d.slot = s.queuedImage e.slot := by
      rw [at', left]
      show State.queuedImage (if o.valid = none then damage t else t) e.slot = _
      split <;> rfl
    have live : d.live = e.live := by
      show (if o.valid = none then damaged else e).live = e.live
      split <;> rfl
    refine ⟨fun i queued => ?_, fun unqueued dead => ?_, fun copy g unqueued there' => ?_⟩
    · rw [there.query_queued (queue.trans queued), shown _ _ _ _ at', left] at next
      exact next
    · rw [there.query_absent (queue.trans unqueued) (live.trans dead), shown _ _ _ _ at', left] at next
      exact next
    · rw [there.query_reads (queue.trans unqueued) (live.trans there'),
        asked _ { a with stage := .live o.valid, appeared := false } _ rfl, left] at next
      exact next
  · intro o free
    have h := attends (by rw [reading]; nofun)
    have counted := readComplete_value released wf reading
    rw [State.serveNext_eq] at counted
    have next {t : State} (plain : o.isCorrected = false) (read : s.actionValue copy o = t) : becomes t := by
      rw [show (readValue ((s.record e.slot).copy copy)).isCorrected = false from plain] at counted
      exact counted.trans (congrArg (fun t => Host.Outcome.next (served t)) read)
    -- the action finds neither a claim in flight nor, as a BLOCK, a claim
    have unused (t : State) (d : DirEntry) (same : d.claimedBy = e.claimedBy) (serial : d.serial = e.serial)
        (claims : t.dir.claims = s.dir.claims) (is : free) : t.inUse d = false := by
      refine State.not_inUse ?_
      rw [same, serial, claims]
      exact is
    have blocks (t : State) (d : DirEntry) (image : Option Image) (there : t.attends a d) (same : d.claimedBy = e.claimedBy)
        (positions : t.positions = s.positions) (read : becomes (t.actionResolved a identity image)) : through t := by
      intro p held block claimed claim at' card
      obtain ⟨u, answered, rest⟩ := there.blocks positions claim card a.kind
      rw [there.through block (same.trans claimed), answered, reply] at read
      exact ⟨u, read, rest⟩
    refine ⟨fun stage bad => ?_, fun stage bad => ?_, fun i g good stage => ?_⟩
    · have read := next (ReadOutcome.isCorrected_of_valid bad) (h.other_asked stage bad)
      rw [asked _ { a with stage := .other identity } _ rfl] at read
      exact read
    · have read := next (ReadOutcome.isCorrected_of_valid bad) (h.both_bad (copy := copy) stage bad)
      have there : (s.foundUnreadable a.slot).attends a damaged := h.foundUnreadable
      refine ⟨fun isQuery => ?_, fun action is => ?_, fun _ => ?_⟩
      · obtain ⟨queue, unread, dead, afresh⟩ := there.query_resolves isQuery identity none
        refine ⟨fun i queued => ?_, fun unqueued bare => ?_, fun copy' n unqueued appeared live => ?_⟩
        · rw [queue i queued, shown _ damaged _ _ rfl, hurt] at read
          exact read
        · have bare' : (s.foundUnreadable a.slot).actionResolved a identity none =
              (s.foundUnreadable a.slot).showsFor a.kind damaged identity none := by
            cases appeared : a.appeared with
            | false => exact unread unqueued appeared
            | true => exact dead unqueued appeared (bare.resolve_left fun still => nomatch still.symm.trans appeared)
          rw [bare', shown _ damaged _ _ rfl, hurt] at read
          exact read
        · rw [afresh copy' n unqueued appeared live, asked _ { a with stage := .live identity, appeared := false } _ rfl,
            hurt] at read
          exact read
      · rw [there.resolved_action action, show a.read none = .unreadable from rfl, there.unreadable
          (fun _ => unused _ damaged rfl rfl rfl is) (fun _ => is.1), reply, hurt] at read
        exact read
      · rw [← hurt]
        exact blocks _ damaged none there rfl rfl read
    · have read := next (by rw [good]; rfl) ((congrArg (s.actionValue copy) good).trans
        (h.copy_read (stage.imp And.left id)))
      intro second d t newest queues acts
      have outcome : s.noted a e t d ∧ becomes (t.actionResolved a identity (some i)) := by
        by_cases other : a.stage = .other identity
        · have yes : second = true := decide_eq_true other
          have moved : t = s.noteLive a.slot copy g := (if_pos yes).trans (by rw [slot]; rfl)
          rw [if_pos other] at read
          rw [moved, show d = { e with live := some (copy, g) } from if_pos yes]
          exact ⟨.moves h copy g, read⟩
        · have no : ¬second = true := Bool.eq_false_iff.1 (decide_eq_false other)
          rw [if_neg other] at read
          rw [show t = s from if_neg no, show d = e from if_neg no]
          exact ⟨.stands h (stage.elim And.right fun is => absurd is other), read⟩
      obtain ⟨noted, resolved⟩ := outcome
      have queue := noted.queuedImage
      have waits := noted.hasWaitingValue
      obtain ⟨there, live, slot', serial, claimed, claims, positions, port, engine, unqueued⟩ := noted
      have unused' (is : acts) : a.kind = .credit ∨ a.kind = .setExpiry → t.inUse d = false :=
        fun kind => unused t d claimed serial claims (is.1 kind)
      have unclaimed (is : acts) : a.kind = .block → d.claimedBy = none := fun kind => claimed.trans (is.2 kind)
      refine ⟨fun isQuery image is => ?_, fun copy' n empty appeared at' => ⟨fun isQuery => ?_, fun action is => ?_⟩,
        fun kind taken => ?_, fun _ => blocks t d _ there claimed positions resolved, fun image is passes => ?_⟩
      · obtain ⟨queued, unread, -, -⟩ := there.query_resolves isQuery identity (some i)
        obtain newest | ⟨empty, still, rfl⟩ := is
        · rw [queued image (queue.trans newest), shown _ _ _ _ slot'] at resolved
          exact resolved
        · rw [unread (queue.trans empty) still, shown _ _ _ _ slot'] at resolved
          exact resolved
      · obtain ⟨-, -, -, afresh⟩ := there.query_resolves isQuery identity (some i)
        rw [afresh copy' n (queue.trans empty) appeared at',
          asked _ { a with stage := .live identity, appeared := false } _ rfl] at resolved
        exact resolved
      · rw [there.afresh action (unused' is) (unclaimed is) at' (queue.trans empty) appeared,
          asked _ { a with stage := .live none, appeared := false } _ rfl] at resolved
        exact resolved
      · have used : d.claimedBy ≠ none ∨ ∃ c ∈ t.dir.claims, c.serial = d.serial := by
          rw [claimed, serial, claims]
          refine (not_and_or.1 taken).imp id fun some => ?_
          push Not at some
          exact some
        rw [there.taken kind used, reply] at resolved
        exact resolved
      · have applied (action : ¬a.kind.isQuery) : becomes (t.applyAction a.kind d.slot image) := by
          rw [there.finds action (unused' passes) (unclaimed passes) live (by rw [queue]; exact is)] at resolved
          exact resolved
        have queued (action : ¬a.kind.isQuery) {made : Image} {data : Word}
            (build : a.kind.build s.port.staging image = .queue made data) : queues made data := by
          obtain ⟨coalesces, joins, full⟩ := there.offers (by rw [port]; exact running) (by rw [port]; exact build) d.slot
          have ran := applied action
          rw [waits] at coalesces joins full
          rw [engine, unqueued] at joins full
          refine ⟨fun waiting => ?_, fun none fits => ?_, fun none many => ?_⟩
          · rw [coalesces waiting, reply, slot'] at ran
            exact ran
          · rw [joins none fits, reply, slot', ← engine] at ran
            exact ran
          · rw [full none many, reply] at ran
            exact ran
        have answered (action : ¬a.kind.isQuery) {code : ReplyCode} {data : Word}
            (build : a.kind.build s.port.staging image = .answer code data) : becomes (answers t code data) := by
          have ran := applied action
          rw [there.builds (by rw [port]; exact build), reply] at ran
          exact ran
        have act {kind : ActionKind} (is : a.kind = kind) (latched : kind.isLatched = true) : ¬a.kind.isQuery := fun q => by
          rw [← is, ActionKind.isLatched_query q] at latched
          nomatch latched
        intro sum
        refine ⟨fun kind above => answered (act kind rfl) ?_, fun kind below => queued (act kind rfl) ?_,
          fun kind => queued (act kind rfl) ?_, fun kind blocked => answered (act kind rfl) ?_,
          fun kind other => queued (act kind rfl) ?_, fun kind other => answered (act kind rfl) ?_, fun kind blocked =>
          ⟨fun empty => queued (act kind rfl) ?_, fun some unused => queued (act kind rfl) ?_,
            fun some used => queued (act kind rfl) ?_⟩⟩
        all_goals rw [kind]
        · exact if_pos above
        · exact if_neg (not_lt.2 below)
        · rfl
        · exact if_pos blocked
        · exact if_neg other
        · exact if_neg other
        all_goals
          refine (if_pos blocked).trans ?_
          unfold Image.unblocked
        · rw [if_pos empty]
          rfl
        · rw [if_neg some, if_pos unused]
          rfl
        · rw [if_neg some, if_neg used]
          rfl

end Sys2Proof.Machine
end
